-- ==== Sys2Proof/Word.lean ====
section
/-! DEFINITION. The word types of the M02 raster pipeline (spec/00_scope.md section 5). -/

namespace Sys2Proof

/-- A byte of PIX, of PK or of the wire. -/
abbrev Byte := BitVec 8

/-- A 16-bit configuration register or header field (D2, R63). -/
abbrev Half := BitVec 16

/-- `Num`: an element of the LUM buffer, an exact rational (R42, R125, D5). -/
abbrev LumNum := Rat

end Sys2Proof
end

