-- ==== Sys2Proof/Syntax.lean ====
section
/-! DEFINITION. The operations of the block: one constructor per row of spec/opcode_table.json, and the
format each row is given there. -/

namespace Sys2Proof

/-- Which of the two pauses a SLEEP is: after a chunk (R163) or after a band (R147). -/
inductive Pause where
  | chunk
  | band
  deriving DecidableEq, Repr

/-- The operations of spec/30_encoding.md section 7, and the three reserved QMODE codes (R67). -/
inductive Instr where
  /-- TX.RESET (R140). -/
  | txReset
  /-- TX.HDR (R142), with the two operands of format WIRE8 (R63). -/
  | txHdr (rowBytes rows : Half)
  /-- TX.FEED (R145). -/
  | txFeed
  /-- TX.BODY (R143) for the band of `rows` rows that starts at row `y`. -/
  | txBody (y rows : Nat)
  /-- Q.THRESH (R101), QMODE code 0. -/
  | qThresh
  /-- Q.FS (R103), QMODE code 1. -/
  | qFs
  /-- Q.ATK (R110), QMODE code 2. -/
  | qAtk
  /-- Q.ORD4 (R118), QMODE code 3. -/
  | qOrd4
  /-- Q.ORD8 (R119), QMODE code 4. -/
  | qOrd8
  /-- Q.RESERVED5 (R67), QMODE code 5. -/
  | qReserved5
  /-- Q.RESERVED6 (R67), QMODE code 6. -/
  | qReserved6
  /-- Q.RESERVED7 (R67), QMODE code 7. -/
  | qReserved7
  /-- START (R180): the host writes 1 to CTRL.START. -/
  | start
  /-- LUMA (R80). -/
  | luma
  /-- TONE (R90). -/
  | tone
  /-- PACK (R130). -/
  | pack
  /-- CHUNK (R160) of an outbound buffer. -/
  | chunk (buf : List Byte)
  /-- SLEEP (R163, R147). -/
  | sleep (p : Pause)
  deriving DecidableEq, Repr

/-- The "format" column of spec/opcode_table.json. -/
inductive Format where
  | wire2
  | wire8
  | raw
  | qmode3
  | ctrl1
  | unencoded
  deriving DecidableEq, Repr

/-- The format the table gives an operation (R60 to R62, R66, R20; "NONE" is `unencoded`). -/
def Instr.format : Instr → Format
  | .txReset => .wire2
  | .txHdr _ _ => .wire8
  | .txFeed => .wire2
  | .txBody _ _ => .raw
  | .qThresh => .qmode3
  | .qFs => .qmode3
  | .qAtk => .qmode3
  | .qOrd4 => .qmode3
  | .qOrd8 => .qmode3
  | .qReserved5 => .qmode3
  | .qReserved6 => .qmode3
  | .qReserved7 => .qmode3
  | .start => .ctrl1
  | .luma => .unencoded
  | .tone => .unencoded
  | .pack => .unencoded
  | .chunk _ => .unencoded
  | .sleep _ => .unencoded

end Sys2Proof
end

