-- ==== Sys2Proof/Decode.lean ====
section
/-! DEFINITION. The encodings of the spec (30_encoding.md; CTRL in 10_state.md R20): the decoder of wire bytes, QMODE codes
and CTRL writes, total and rejecting by name, and the encoder, both written from the same tables. The block itself only
produces wire bytes (R68); the decoder reads them as the receiver of R63 and R64 does. -/

namespace Sys2Proof

/-! ### Header fields (R63) -/

/-- `lo8(v) = v mod 256` (00_scope.md 5.1). -/
def lo8 (v : Nat) : Byte := BitVec.ofNat 8 (v % 256)

/-- `hi8(v) = (v div 256) mod 256` (00_scope.md 5.1). -/
def hi8 (v : Nat) : Byte := BitVec.ofNat 8 (v / 256 % 256)

/-- `v = byte_lo + 256 * byte_hi`, as a receiver recovers it (R63). -/
def joinLoHi (lo hi : Byte) : Half := BitVec.ofNat 16 (lo.toNat + 256 * hi.toNat)

/-! ### The wire commands (R61, R62) -/

/-- Reset, `1B 40` (R61). -/
def resetBytes : List Byte := [0x1B#8, 0x40#8]

/-- Feed, `0A 0A` (R61). -/
def feedBytes : List Byte := [0x0A#8, 0x0A#8]

/-- The raster header `1D 76 30 00 rowBytes_lo rowBytes_hi rows_lo rows_hi` (R62). -/
def headerBytes (rowBytes rows : Nat) : List Byte :=
  [0x1D#8, 0x76#8, 0x30#8, 0x00#8, lo8 rowBytes, hi8 rowBytes, lo8 rows, hi8 rows]

/-! ### The encoder -/

/-- The QMODE code of a Q operation (R66, R67). -/
def qmodeCode : Instr → Option (BitVec 3)
  | .qThresh => some 0#3
  | .qFs => some 1#3
  | .qAtk => some 2#3
  | .qOrd4 => some 3#3
  | .qOrd8 => some 4#3
  | .qReserved5 => some 5#3
  | .qReserved6 => some 6#3
  | .qReserved7 => some 7#3
  | _ => none

/-- The bytes that encode an operation, first byte first; none for the formats RAW and NONE, which have no encoding of
their own (R60, 30 section 7). A QMODE code and a CTRL write stand in the low bits of one byte. -/
def encode : Instr → Option (List Byte)
  | .txReset => some resetBytes
  | .txHdr rowBytes rows => some (headerBytes rowBytes.toNat rows.toNat)
  | .txFeed => some feedBytes
  | .txBody _ _ => none
  | .qThresh => some [0x00#8]
  | .qFs => some [0x01#8]
  | .qAtk => some [0x02#8]
  | .qOrd4 => some [0x03#8]
  | .qOrd8 => some [0x04#8]
  | .qReserved5 => some [0x05#8]
  | .qReserved6 => some [0x06#8]
  | .qReserved7 => some [0x07#8]
  | .start => some [0x01#8]
  | .luma => none
  | .tone => none
  | .pack => none
  | .chunk _ => none
  | .sleep _ => none

/-! ### The decoder -/

/-- Why the decoder refuses. -/
inductive DecodeError where
  /-- The bytes end inside a command. -/
  | truncated
  /-- The first bytes are no command of R61 or R62. -/
  | unknownCommand (b0 b1 : Byte)
  /-- Bits above the 3-bit code are set (R66). -/
  | notACode (b : Byte)
  /-- A write of 0 to CTRL does nothing (R20). -/
  | noOperation
  /-- A CTRL write of more than one bit (R20). -/
  | notACtrlWrite (b : Byte)
  /-- The format has no encoding (RAW data, or an operation that is not encoded). -/
  | notEncoded
  /-- The bytes are a command of the other wire format (R60, log 18). -/
  | otherFormat (i : Instr)
  deriving DecidableEq, Repr

/-- The bytes after `1D 76` of a raster header (R62). -/
def decodeHeaderTail : List Byte → Except DecodeError (Instr × List Byte)
  | b2 :: b3 :: xl :: xh :: yl :: yh :: rest =>
    if b2 = 0x30#8 ∧ b3 = 0x00#8 then .ok (.txHdr (joinLoHi xl xh) (joinLoHi yl yh), rest)
    else .error (.unknownCommand b2 b3)
  | _ => .error .truncated

/-- A wire command at the head of a byte stream, and the bytes after it (R60 to R62). -/
def decodeWire : List Byte → Except DecodeError (Instr × List Byte)
  | b0 :: b1 :: rest =>
    if b0 = 0x1B#8 ∧ b1 = 0x40#8 then .ok (.txReset, rest)
    else if b0 = 0x0A#8 ∧ b1 = 0x0A#8 then .ok (.txFeed, rest)
    else if b0 = 0x1D#8 ∧ b1 = 0x76#8 then decodeHeaderTail rest
    else .error (.unknownCommand b0 b1)
  | _ => .error .truncated

/-- The operation a QMODE code selects; 5 to 7 are the reserved ones (R66, R67). -/
def decodeQmode (code : BitVec 3) : Instr :=
  match code.toNat with
  | 0 => .qThresh
  | 1 => .qFs
  | 2 => .qAtk
  | 3 => .qOrd4
  | 4 => .qOrd8
  | 5 => .qReserved5
  | 6 => .qReserved6
  | _ => .qReserved7

/-- What a host write to CTRL asks for: 1 is START, 0 nothing (R20). -/
def decodeCtrl (v : BitVec 1) : Option Instr :=
  if v = 1#1 then some .start else none

/-- A QMODE code held in the low bits of a byte. -/
def decodeQmodeByte : List Byte → Except DecodeError (Instr × List Byte)
  | b :: rest =>
    if b.toNat < 8 then .ok (decodeQmode (BitVec.ofNat 3 b.toNat), rest) else .error (.notACode b)
  | [] => .error .truncated

/-- A CTRL write held in the low bit of a byte. -/
def decodeCtrlByte : List Byte → Except DecodeError (Instr × List Byte)
  | b :: rest =>
    if b.toNat < 2 then
      match decodeCtrl (BitVec.ofNat 1 b.toNat) with
      | some i => .ok (i, rest)
      | none => .error .noOperation
    else .error (.notACtrlWrite b)
  | [] => .error .truncated

/-- A wire command of the format asked for; one of the other wire format is refused (R60). That there is a decoder of wire
bytes at all, and that it refuses here, is the model's choice: the block decodes none (R68, log 18). -/
def decodeWireAs (f : Format) (bs : List Byte) : Except DecodeError (Instr × List Byte) :=
  match decodeWire bs with
  | .ok (i, rest) => if i.format = f then .ok (i, rest) else .error (.otherFormat i)
  | .error e => .error e

/-- The decoder: total on any bytes, for each format of the table. It reads one operation and hands back the bytes after it
(DESIGN CHOICE, log 18: the block itself decodes no wire bytes, R68). -/
def decode (f : Format) (bs : List Byte) : Except DecodeError (Instr × List Byte) :=
  match f with
  | .wire2 => decodeWireAs .wire2 bs
  | .wire8 => decodeWireAs .wire8 bs
  | .qmode3 => decodeQmodeByte bs
  | .ctrl1 => decodeCtrlByte bs
  | .raw => .error .notEncoded
  | .unencoded => .error .notEncoded

/-! ### Words numbered as spec/opcode_table.json numbers them -/

/-- The `n` bytes of a table word, first byte first. The table writes a wire command left to right in sending order as one
number (`1B 40` is 0x1B40), so the first byte is the most significant one. -/
def tableBytes : Nat → Nat → List Byte
  | 0, _ => []
  | n + 1, w => BitVec.ofNat 8 (w / 256 ^ n % 256) :: tableBytes n w

/-- Which format a row of `nbits` bits belongs to: 16 and 64 bits are the wire formats, 3 bits (one byte) a QMODE code, 1 bit
a CTRL write. A QMODE code and a CTRL write are told apart by the register they go to, which the table does not put in the
word; of a whole byte the QMODE reading is taken (DESIGN CHOICE, log 18). -/
def tableFormat : Nat → Option Format
  | 1 => some .ctrl1
  | 3 => some .qmode3
  | 8 => some .qmode3
  | 16 => some .wire2
  | 64 => some .wire8
  | _ => none

/-- The instruction the decoder reads from a word of the table of `nbits` bits; the bytes above `nbits`, up to the longest
command, are 0. The command must have the word's own format: a 64-bit word is a header or nothing (DESIGN CHOICE, log 18). -/
def decodeTableWord (nbits w : Nat) : Option Instr :=
  match tableFormat nbits with
  | none => none
  | some f =>
    if w < 2 ^ nbits then
      match decode f (tableBytes ((nbits + 7) / 8) w ++ List.replicate 6 0#8) with
      | .ok (i, _) => some i
      | .error _ => none
    else none

end Sys2Proof
end

