-- ==== Sys2Proof/Config.lean ====
section
/-! DEFINITION. What an implementation fixes (the parameters of spec/92_eei_decisions.md section 2) and the
free values of the spec. `Params` is an argument of every shared operation; the instance the spec adopts is
`Params.adopted` in Sys2Proof/Machine/Numeric.lean. The free values have no body: nothing can be proved of them. -/

namespace Sys2Proof

/-- One element of PIX: four bytes, in the order red, green, blue, alpha (R41, D1). -/
structure Pixel where
  r : Byte
  g : Byte
  b : Byte
  a : Byte
  deriving DecidableEq, Repr, Inhabited

/-- The parameters a model takes as arguments (92 section 2). -/
structure Params where
  /-- MAXPIX: capacity of PIX, LUM and PK in pixels (D3). -/
  maxPix : Nat
  /-- LUMA_FN: from R, G, B to luminance (R84, D4). -/
  lumaFn : Byte → Byte → Byte → Byte
  /-- RND: the rounding applied to every arithmetic result of R103 and R110 (R125, D5). -/
  rnd : LumNum → LumNum
  /-- TONE_FN for `gamma = p / q`, `p > 0`, `q > 0` (R92; by way of POW, R95; D6). -/
  toneFn : Nat → Nat → LumNum → LumNum
  /-- BAYER4, row index first (R116, R118, D8). -/
  bayer4 : Nat → Nat → Nat
  /-- BAYER8, row index first (R116, R119, D8). -/
  bayer8 : Nat → Nat → Nat

/-- Free value (log 4): what PIX element `i` holds after the `epoch`-th reset, until it is written (R232, U13). -/
opaque Config.pixAtReset (epoch i : Nat) : Pixel

/-- Free value (log 4): what LUM element `i` holds after the `epoch`-th reset, until it is written (R232, U13). -/
opaque Config.lumAtReset (epoch i : Nat) : LumNum

/-- Free value (log 4): what PK byte `i` holds after the `epoch`-th reset, until it is written (R232, U13). -/
opaque Config.pkAtReset (epoch i : Nat) : Byte

/-- Free value (log 5): the `n`-th unspecified host read of a PIX element (R28 gives a read during a job no value). -/
opaque Config.unspecifiedPixel (n : Nat) : Pixel

/-- Free value (log 5): the `n`-th unspecified host read of a PK byte (R28, U14). -/
opaque Config.unspecifiedByte (n : Nat) : Byte

/-- Free value (log 5): the `n`-th host read of a LUM element (R28, R29, U14). -/
opaque Config.unspecifiedNum (n : Nat) : LumNum

/-- Free value (log 10): what the tone curve gives for a negative element, of which R92 says nothing; a byte, because
the source wants every intermediate clamped (R93). -/
opaque Config.toneOfNegative (p q : Nat) (v : LumNum) : Byte

/-- The default BAYER4 of R117 (log 9), row `y mod 4` a line. -/
def bayer4Default : List (List Nat) :=
  [[0, 8, 2, 10],
   [12, 4, 14, 6],
   [3, 11, 1, 9],
   [15, 7, 13, 5]]

/-- The default BAYER8 of R117 (log 9), row `y mod 8` a line. -/
def bayer8Default : List (List Nat) :=
  [[0, 32, 8, 40, 2, 34, 10, 42],
   [48, 16, 56, 24, 50, 18, 58, 26],
   [12, 44, 4, 36, 14, 46, 6, 38],
   [60, 28, 52, 20, 62, 30, 54, 22],
   [3, 35, 11, 43, 1, 33, 9, 41],
   [51, 19, 59, 27, 49, 17, 57, 25],
   [15, 47, 7, 39, 13, 45, 5, 37],
   [63, 31, 55, 23, 61, 29, 53, 21]]

/-- Entry `[row][col]` of a matrix held as a list of rows. -/
def matrixAt (m : List (List Nat)) (row col : Nat) : Nat :=
  (m.getD row []).getD col 0

/-- R116's requirement on a matrix of size `n x n`: the entries are the integers 0 to `n^2 - 1`, each once. -/
def isBayer (n : Nat) (m : Nat → Nat → Nat) : Bool :=
  let entries := (List.range n).flatMap fun i => (List.range n).map fun j => m i j
  (List.range (n * n)).all fun k => entries.count k == 1

/-- The constraints of 92 section 2 on the parameters: MAXPIX at least 1, each matrix a permutation (R116). -/
def Params.valid (p : Params) : Bool :=
  decide (1 ≤ p.maxPix) && isBayer 4 p.bayer4 && isBayer 8 p.bayer8

end Sys2Proof
end

