-- ==== Sys2Proof/Machine/State.lean ====
section
/-! DEFINITION. The state of the machine: every piece spec/10_state.md section 9 and spec/20_memory.md R40 list, the pacing
timer (R216), the history of emitted events (R44, R166), and the model's own fields (which agent moves next, the position
inside RENDER, the host's last read, two counters for free values). Plain data; the machine right after reset. -/

namespace Sys2Proof.Machine

open Sys2Proof

/-- A memory: its written elements, element indices strictly rising (R40). An index that is not listed has not been written
since reset and reads a free value (R232, log 4). -/
abbrev Mem (α : Type) := List (Nat × α)

/-- The canonical form of a memory: strictly rising element indices. -/
def Mem.wf {α : Type} : Mem α → Bool
  | [] => true
  | [_] => true
  | a :: b :: rest => decide (a.1 < b.1) && Mem.wf (b :: rest)

/-- The nine configuration registers (R10 to R19); also their latched copy JOB (R23). -/
structure Cfg where
  w : Half
  h : Half
  gamma : Half
  qmode : BitVec 3
  thresh : BitVec 8
  chunkSize : Half
  bandRows : Half
  bandDelay : Half
  chunkDelay : Half
  deriving DecidableEq, Repr

/-- The fields of STATUS (R21). The word itself, with bit 7 reading 0, is `Status.word` in Machine/Flags.lean. -/
structure Status where
  busy : Bool
  done : Bool
  err : Bool
  errcode : BitVec 2
  rej : Bool
  fallback : Bool
  deriving DecidableEq, Repr

/-- SEQ.PHASE (R24). -/
inductive Phase where
  | idle
  | render
  | reset
  | hdr
  | body
  | gap
  | feed
  deriving DecidableEq, Repr

/-- SEQ.WAIT (R24). -/
inductive Wait where
  | none
  | write
  | csleep
  | bsleep
  deriving DecidableEq, Repr

/-- The sequencer position (R24). Its numbers never wrap (R24), so they are naturals; their ranges are an invariant
(log 17). -/
structure Seq where
  phase : Phase
  y : Nat
  rows : Nat
  off : Nat
  wait : Wait
  nwr : Nat
  deriving DecidableEq, Repr

/-- The four stages of RENDER (R1, R185): which one is next (log 2). -/
inductive Stage where
  | luma
  | tone
  | quant
  | pack
  deriving DecidableEq, Repr

/-- What the block has emitted (R166, R167, R171), and the record that a write was answered fail (U16). -/
inductive Event where
  /-- `Write(index, bytes)`: a slice handed to the write capability. -/
  | write (index : Nat) (bytes : List Byte)
  /-- `Sleep(ms)`: the pacing timer started. -/
  | sleep (ms : Half)
  /-- Write number `index` was answered fail. -/
  | failed (index : Nat)
  deriving DecidableEq, Repr

/-- The registers by name, numbered 0 to 11 in this order (R10, R20, R21, R22). -/
inductive Reg where
  | w
  | h
  | gamma
  | qmode
  | thresh
  | chunkSize
  | bandRows
  | bandDelay
  | chunkDelay
  | ctrl
  | status
  | errinfo
  deriving DecidableEq, Repr

/-- What the host may do (R10, R20, R28, R29, R189). A register is written whole, at its own width (D26). -/
inductive HostAction where
  | setW (v : Half)
  | setH (v : Half)
  | setGamma (v : Half)
  | setQmode (v : BitVec 3)
  | setThresh (v : BitVec 8)
  | setChunkSize (v : Half)
  | setBandRows (v : Half)
  | setBandDelay (v : Half)
  | setChunkDelay (v : Half)
  /-- A write to CTRL; 1 is START (R20). -/
  | writeCtrl (v : BitVec 1)
  /-- A write to STATUS, which is read-only to the host (R21). -/
  | writeStatus (v : BitVec 8)
  /-- A write to ERRINFO, which is read-only (R22). -/
  | writeErrinfo (v : BitVec 32)
  | readReg (r : Reg)
  | writePix (i : Nat) (p : Pixel)
  | readPix (i : Nat)
  | readPk (i : Nat)
  | readLum (i : Nat)
  deriving DecidableEq, Repr

/-- The two values of the completion signal (R164, D14). -/
inductive LinkAnswer where
  | ok
  | fail
  deriving DecidableEq, Repr

/-- One atomic move of one agent (10_state.md section 1; R205; R231 for the reset). -/
inductive Turn where
  /-- The sequencer moves, if one of its steps is enabled. -/
  | seq
  /-- The LINK answers. -/
  | link (a : LinkAnswer)
  /-- The TIMER ends a sleep. -/
  | timer
  /-- The host does something. -/
  | host (a : HostAction)
  /-- A hardware reset. -/
  | reset
  deriving DecidableEq, Repr

/-- What the host's last read returned. A register is returned as a word of 32 bits, a narrower one zero-extended
(DESIGN CHOICE, log 22). -/
inductive HostData where
  | none
  | reg (v : BitVec 32)
  | pixel (p : Pixel)
  | byte (b : Byte)
  | num (v : LumNum)
  deriving DecidableEq, Repr

/-- The state of the machine. -/
structure State where
  /-- CFG (R10). -/
  cfg : Cfg
  /-- STATUS (R21). -/
  status : Status
  /-- ERRINFO (R22). -/
  errinfo : BitVec 32
  /-- JOB (R23). -/
  job : Cfg
  /-- SEQ (R24). -/
  seq : Seq
  /-- The next stage of RENDER (model's own, log 2). -/
  stage : Stage
  /-- The pacing timer: idle, or loaded with this many milliseconds (R216, log 21). -/
  timer : Option Half
  /-- PIX (R41). -/
  pix : Mem Pixel
  /-- LUM (R42). -/
  lum : Mem LumNum
  /-- PK (R43). -/
  pk : List Host.Cell
  /-- The events emitted, oldest first; WIRE is their bytes (R44, R166). -/
  history : List Event
  /-- Which agent moves next, and how (model's own, log 1); when empty, the sequencer. -/
  turns : List Turn
  /-- What the host's last read returned (model's own, log 12). -/
  hostData : HostData
  /-- How many hardware resets there were (model's own, log 4). -/
  resets : Nat
  /-- How many unspecified host reads there were (model's own, log 5). -/
  draws : Nat
  deriving DecidableEq, Repr

/-- The model's faults. -/
inductive Fault where
  /-- Raised by a host access (HostAction.writePix, readPix, readLum or readPk) to an element index at or above the
  capacity of that memory (R40): there is no such element. SAFE: the model stops, and the spec gives such an access no
  meaning (log 11). -/
  | noSuchElement (index : Nat)
  deriving DecidableEq, Repr

/-- The model's refusals. -/
inductive Refusal where
  /-- Raised by exec for an instruction that has no meaning yet; no arm of exec raises it now. SAFE. -/
  | notModelled (mnemonic : String)
  deriving DecidableEq, Repr

/-- The reset values of the configuration registers (R230, R190). -/
def Cfg.reset : Cfg where
  w := 384#16
  h := 0#16
  gamma := 0x0100#16
  qmode := 1#3
  thresh := 128#8
  chunkSize := 160#16
  bandRows := 0#16
  bandDelay := 0#16
  chunkDelay := 0#16

/-- STATUS = 0 (R231). -/
def Status.reset : Status where
  busy := false
  done := false
  err := false
  errcode := 0#2
  rej := false
  fallback := false

/-- SEQ after reset (R231). -/
def Seq.reset : Seq where
  phase := .idle
  y := 0
  rows := 0
  off := 0
  wait := .none
  nwr := 0

/-- The machine right after reset (R230 to R232). The values of `stage`, `history`, `turns`, `hostData`, `resets` and
`draws` are the model's own (log 1, 2, 4, 5, 12, 13). -/
def State.reset : State where
  cfg := Cfg.reset
  status := Status.reset
  errinfo := 0#32
  job := Cfg.reset
  seq := Seq.reset
  stage := .luma
  timer := none
  pix := []
  lum := []
  pk := []
  history := []
  turns := []
  hostData := .none
  resets := 0
  draws := 0

end Sys2Proof.Machine
end

