-- ==== Sys2Proof/Machine/Operands.lean ====
section
/-! DEFINITION. Operand forms: reading and writing an element of a memory (MemRead, MemWrite of 00_scope.md 5.2), the loops of
the stage pseudocode, the addresses of pixels and of packed rows (R41, R43, R56), and the outbound buffers and their slices
(45_transport.md section 3). -/

namespace Sys2Proof.Machine

open Sys2Proof

/-! ### Memories -/

/-- The element written at index `a`, if one was. -/
def memGet {α : Type} : Mem α → Nat → Option α
  | [], _ => none
  | (b, v) :: rest, a => if a = b then some v else memGet rest a

/-- Write `v` to element `a`, keeping the indices strictly rising. -/
def memSet {α : Type} : Mem α → Nat → α → Mem α
  | [], a, v => [(a, v)]
  | (b, u) :: rest, a, v =>
    if a < b then (a, v) :: (b, u) :: rest
    else if a = b then (a, v) :: rest
    else (b, u) :: memSet rest a v

/-- Read element `a`; an unwritten one reads `free a` (R232, log 4). -/
def memRead {α : Type} (free : Nat → α) (m : Mem α) (a : Nat) : α :=
  (memGet m a).getD (free a)

/-! ### Loops -/

/-- `for i in 0 .. n-1`, in rising order. -/
def forUp {σ : Type} : Nat → (Nat → σ → σ) → σ → σ
  | 0, _, s => s
  | n + 1, f, s => f n (forUp n f s)

/-- `for i in n-1, n-2, .., 0`, in falling order (the odd rows of R102). -/
def forDown {σ : Type} : Nat → (Nat → σ → σ) → σ → σ
  | 0, _, s => s
  | n + 1, f, s => forDown n f (f n s)

/-- `for y in 0 .. h-1: for x in 0 .. w-1`, row by row, left to right (R47). -/
def forGrid {σ : Type} (w h : Nat) (f : Nat → Nat → σ → σ) (s : σ) : σ :=
  forUp h (fun y => forUp w (fun x => f y x)) s

/-! ### Addresses -/

/-- The element of PIX or LUM that holds pixel `(x, y)` of a grid `w` wide (R41, R42). -/
def pixelAddr (w x y : Nat) : Nat := y * w + x

/-- `rowBytes = ceil(w / 8) = (w + 7) div 8` (R131). -/
def rowBytesOf (w : Nat) : Nat := (w + 7) / 8

/-- The PK byte `xb` of row `y` (R43). -/
def packAddr (w y xb : Nat) : Nat := y * rowBytesOf w + xb

/-- The bounds test of R48: on the two coordinates, not on the linear index. -/
def inGrid (w h : Nat) (x y : Int) : Bool :=
  decide (0 ≤ x) && decide (x < w) && decide (0 ≤ y) && decide (y < h)

/-! ### The job's operands -/

/-- `w = JOB.W` (R23). -/
def State.width (s : State) : Nat := s.job.w.toNat

/-- `h = JOB.H` (R23). -/
def State.height (s : State) : Nat := s.job.h.toNat

/-- `rowBytes = ceil(w / 8)` of the job (R23). -/
def State.rowBytes (s : State) : Nat := rowBytesOf s.width

/-- `cs = JOB.CHUNKSIZE`. -/
def State.chunkSize (s : State) : Nat := s.job.chunkSize.toNat

/-- `b = JOB.BANDROWS`. -/
def State.bandRows (s : State) : Nat := s.job.bandRows.toNat

/-- Read a PIX element. -/
def State.readPix (s : State) (i : Nat) : Pixel := memRead (Config.pixAtReset s.resets) s.pix i

/-- Read a LUM element. -/
def State.readLum (s : State) (i : Nat) : LumNum := memRead (Config.lumAtReset s.resets) s.lum i

/-- Read a PK byte. -/
def State.readPk (s : State) (i : Nat) : Byte := memRead (Config.pkAtReset s.resets) s.pk i

/-! ### Outbound buffers -/

/-- The half-open byte range `buf[i : j]` (00_scope.md 5.1). -/
def byteRange (buf : List Byte) (i j : Nat) : List Byte := (buf.drop i).take (j - i)

/-- The body of the band `(y, rows)`: `PK[y*rowBytes : (y+rows)*rowBytes]` (R56, R143). -/
def State.bandBytes (s : State) (y rows : Nat) : List Byte :=
  (List.range (s.rowBytes * rows)).map fun k => s.readPk (y * s.rowBytes + k)

/-- `cur(SEQ)`: the current outbound buffer (45_transport.md section 3). Outside the four sending phases there is none. -/
def State.cur (s : State) : List Byte :=
  match s.seq.phase with
  | .reset => resetBytes
  | .hdr => headerBytes s.rowBytes s.seq.rows
  | .body => s.bandBytes s.seq.y s.seq.rows
  | .feed => feedBytes
  | .idle => []
  | .render => []
  | .gap => []

/-- `n = min(cs, len - OFF)`: the length of the next slice of a buffer of `len` bytes (R160, R166). -/
def State.sliceLen (s : State) (len : Nat) : Nat := min s.chunkSize (len - s.seq.off)

end Sys2Proof.Machine
end

