-- ==== Sys2Proof/Machine/Numeric.lean ====
section
/-! DEFINITION. The number functions of the parameters (92_eei_decisions.md section 2): the exact luminance (R81) and tone curve
(R92), the named alternatives luma_f64 (R84), POW (R95) and a binary64 RND (R125), and the instance the spec adopts. -/

namespace Sys2Proof.Machine

open Sys2Proof

/-- `trunc(r)`: toward zero (00_scope.md 5.1). -/
def truncNum (r : LumNum) : Int := if r < 0 then -(-r).floor else r.floor

/-- `clamp(r, lo, hi)` (00_scope.md 5.1). -/
def clampNum (r lo hi : LumNum) : LumNum := if r < lo then lo else if hi < r then hi else r

/-- `luma_exact` (R81): `(299*R + 587*G + 114*B) div 1000`. -/
def lumaExact (r g b : Byte) : Byte :=
  BitVec.ofNat 8 ((299 * r.toNat + 587 * g.toNat + 114 * b.toNat) / 1000)

/-- The condition of R92 on a candidate `n`: `n^p * 255^q <= 255^p * v^q`, for `v = num / den >= 0`. -/
def toneFits (p q : Nat) (v : LumNum) (n : Nat) : Bool :=
  decide (n ^ p * 255 ^ q * v.den ^ q ≤ 255 ^ p * v.num.toNat ^ q)

/-- The largest `n` in `0 .. top` that fits; 0 always does. -/
def largestFit (fits : Nat → Bool) : Nat → Nat
  | 0 => 0
  | n + 1 => if fits (n + 1) then n + 1 else largestFit fits n

/-- The exact tone curve (R92) for `gamma = p / q`, in lowest terms. Of a negative element, which no job reaches, R92 says
nothing: a free value (log 10). -/
def toneExact (p q : Nat) (v : LumNum) : LumNum :=
  if v < 0 then ((Config.toneOfNegative p q v).toNat : LumNum)
  else (largestFit (toneFits (p / Nat.gcd p q) (q / Nat.gcd p q) v) 255 : LumNum)

/-- The tone curve by way of a power function POW (R95). -/
def toneByPow (pow : LumNum → LumNum → LumNum) (p q : Nat) (v : LumNum) : LumNum :=
  (truncNum (clampNum (pow (v / 255) ((q : LumNum) / (p : LumNum)) * 255) 0 255) : LumNum)

/-- `a / b` rounded to the nearest natural, ties to even. -/
def roundHalfEven (a b : Nat) : Nat :=
  let q := a / b
  let r := a % b
  if 2 * r > b ∨ (2 * r = b ∧ q % 2 = 1) then q + 1 else q

/-- A positive fraction scaled by `2^(-e)`, as numerator and denominator. -/
def scaleDown (num den : Nat) (e : Int) : Nat × Nat :=
  (num * 2 ^ (-e).toNat, den * 2 ^ e.toNat)

/-- The exponent at which `num / den` has a significand of 53 bits, not below that of the subnormal numbers. -/
def binary64Exp (num den : Nat) : Int :=
  let e0 : Int := (Nat.log2 num : Int) - (Nat.log2 den : Int) - 52
  let s := scaleDown num den e0
  let e1 := if s.1 < 2 ^ 52 * s.2 then e0 - 1 else e0
  max e1 (-1074)

/-- Round to the nearest binary64 number, ties to even. (No value of this block reaches the overflow range: R122.) -/
def roundBinary64 (r : LumNum) : LumNum :=
  let e := binary64Exp r.num.natAbs r.den
  let s := scaleDown r.num.natAbs r.den e
  let m : LumNum := (roundHalfEven s.1 s.2 : LumNum) * (2 : LumNum) ^ e.toNat / (2 : LumNum) ^ (-e).toNat
  if r < 0 then -m else m

/-- `luma_f64` (R84): `(0.299*R + 0.587*G) + 0.114*B` in binary64, left to right, truncated. -/
def lumaF64 (r g b : Byte) : Byte :=
  let fr := roundBinary64 (roundBinary64 (299 / 1000) * r.toNat)
  let fg := roundBinary64 (roundBinary64 (587 / 1000) * g.toNat)
  let fb := roundBinary64 (roundBinary64 (114 / 1000) * b.toNat)
  BitVec.ofInt 8 (truncNum (roundBinary64 (roundBinary64 (fr + fg) + fb)))

/-- MAXPIX's default, 65535 x 65535: no extra limit (D3, log 8). -/
def maxPixDefault : Nat := 65535 * 65535

end Sys2Proof.Machine

namespace Sys2Proof

/-- The instance the spec adopts: every parameter at its default (92 section 2; log 6 to 10). -/
def Params.adopted : Params where
  maxPix := Machine.maxPixDefault
  lumaFn := Machine.lumaExact
  rnd := id
  toneFn := Machine.toneExact
  bayer4 := matrixAt bayer4Default
  bayer8 := matrixAt bayer8Default

end Sys2Proof
end

