-- ==== Sys2Proof/Machine/Flags.lean ====
section
/-! DEFINITION. STATUS and ERRINFO: the word the host reads (R21) and every way a flag is set or cleared. No operation sets a
flag as a side effect of its arithmetic (R21). -/

namespace Sys2Proof.Machine

open Sys2Proof

/-- STATUS as the host reads it: bit 7 is 0, then FALLBACK, REJ, ERRCODE, ERR, DONE, BUSY (R21). -/
def Status.word (f : Status) : BitVec 8 :=
  0#1 ++ BitVec.ofBool f.fallback ++ BitVec.ofBool f.rej ++ f.errcode ++ BitVec.ofBool f.err ++ BitVec.ofBool f.done
    ++ BitVec.ofBool f.busy

/-- An accepted START first clears DONE, ERR, ERRCODE, REJ, FALLBACK and ERRINFO (R180, R209). -/
def State.clearFlags (s : State) : State :=
  { s with
    status := { s.status with done := false, err := false, errcode := 0#2, rej := false, fallback := false }
    errinfo := 0#32 }

/-- STATUS.FALLBACK <- 1 (R183). -/
def State.flagFallback (s : State) : State :=
  { s with status := { s.status with fallback := true } }

/-- ERR <- 1, ERRCODE and ERRINFO as given: the part of an error's entry that InputError and TransportError share
(R206, R207). -/
def State.recordError (code : BitVec 2) (info : BitVec 32) (s : State) : State :=
  { s with
    status := { s.status with err := true, errcode := code }
    errinfo := info }

/-- STATUS.BUSY <- 1: the job is running (R180). -/
def State.flagBusy (s : State) : State :=
  { s with status := { s.status with busy := true } }

/-- BUSY <- 0 and DONE <- 1: the job is done (R187). -/
def State.flagDone (s : State) : State :=
  { s with status := { s.status with busy := false, done := true } }

/-- BUSY <- 0, nothing else: the job was aborted (R207). -/
def State.flagAborted (s : State) : State :=
  { s with status := { s.status with busy := false } }

/-- STATUS.REJ <- 1 (R208). -/
def State.flagRejected (s : State) : State :=
  { s with status := { s.status with rej := true } }

end Sys2Proof.Machine
end

