-- ==== Sys2Proof/Machine/Ops.lean ====
section
/-! DEFINITION. The named operations over the state: taking an error (R206 to R208), emitting a write or a sleep, one pass of
CHUNK's loop (R160, R166), the answers of LINK and TIMER (R167 to R169), the moves of the sequencer (R171, R185, R187), START's
parts (R181 to R183) and a hardware reset (R230 to R232). -/

namespace Sys2Proof.Machine

open Sys2Proof

/-! ### Taking an error -/

/-- The errors of R200 that a step takes. -/
inductive JobError where
  /-- InputError with the number of the failing check (R206). -/
  | input (check : BitVec 32)
  /-- TransportError (R207). -/
  | transport
  /-- BusyReject (R208). -/
  | busyReject
  deriving DecidableEq, Repr

/-- `raise <Exception>`: the one entry of every error. InputError records itself and leaves the rest (R206). TransportError
records NWR, ends the job, frees the sequencer and notes the failed write in the history (R207, U16). BusyReject sets REJ and
nothing else (R208). The change of STATUS is part of the step that fails (R219). -/
def State.raise (e : JobError) (s : State) : State :=
  match e with
  | .input check => s.recordError 1#2 check
  | .transport =>
    { (s.recordError 2#2 (BitVec.ofNat 32 s.seq.nwr)).flagAborted with
      seq := { s.seq with phase := .idle, wait := .none }
      history := s.history ++ [.failed s.seq.nwr] }
  | .busyReject => s.flagRejected

/-! ### Emitting -/

/-- `emit Write(b)`: the slice goes to the write capability as write number NWR, and SEQ waits for its completion (R166). -/
def State.emitWrite (bytes : List Byte) (s : State) : State :=
  { s with
    history := s.history ++ [.write s.seq.nwr bytes]
    seq := { s.seq with wait := .write } }

/-- `emit Sleep(ms)`: the pacing timer is loaded and SEQ waits for the wake, in state `w` (R163, R171, R216). -/
def State.emitSleep (ms : Half) (w : Wait) (s : State) : State :=
  { s with
    history := s.history ++ [.sleep ms]
    timer := some ms
    seq := { s.seq with wait := w } }

/-- The bytes of one event: the payload of a write. -/
def Event.bytes : Event → List Byte
  | .write _ bs => bs
  | .sleep _ => []
  | .failed _ => []

/-- WIRE: every byte of every write, in the order handed over (R44). -/
def State.wire (s : State) : List Byte := s.history.flatMap Event.bytes

/-! ### CHUNK and SLEEP -/

/-- Step *issue* (R166): hand over the next slice of `buf`, at SEQ.OFF. -/
def State.issue (buf : List Byte) (s : State) : State :=
  s.emitWrite (byteRange buf s.seq.off (s.seq.off + s.sliceLen buf.length))

/-- One pass of CHUNK's loop up to its wait: while `off < L`, emit the next slice; else the loop has ended (R160). -/
def State.chunkPass (buf : List Byte) (s : State) : State :=
  if s.seq.off < buf.length then s.issue buf else s

/-- CHUNK(buf) from where SEQ.OFF stands. While a write or a pause is pending CHUNK waits and nothing happens (R162, R175). -/
def State.chunk (buf : List Byte) (s : State) : State :=
  if s.seq.wait = .none then s.chunkPass buf else s

/-- The TX operations: make `buf` the outbound buffer of `phase` and start CHUNK on it, `off <- 0` (R140 to R145, R160). -/
def State.transmit (phase : Phase) (buf : List Byte) (s : State) : State :=
  if s.seq.wait = .none then
    { s with seq := { s.seq with phase := phase, off := 0 } }.chunkPass buf
  else s

/-- The chunk pause (R163): a sleep of JOB.CHUNKDELAY, and no event when that is 0. -/
def State.pauseChunk (s : State) : State :=
  if 0 < s.job.chunkDelay.toNat then s.emitSleep s.job.chunkDelay .csleep else s

/-- The band pause (R147): with banding on a sleep of JOB.BANDDELAY, and no event when that is 0 (D12, D13). -/
def State.pauseBand (s : State) : State :=
  if 0 < s.bandRows ∧ 0 < s.job.bandDelay.toNat then s.emitSleep s.job.bandDelay .bsleep else s

/-! ### The answers of LINK and TIMER -/

/-- Step *complete-ok* (R167) up to its chunk pause: the slice counts as sent and SEQ waits for nothing. -/
def State.sliceSent (s : State) : State :=
  { s with
    seq :=
      { s.seq with
        off := s.seq.off + s.sliceLen s.cur.length
        nwr := s.seq.nwr + 1
        wait := .none } }

/-- Step *wake* (R169): the sleep has ended and the timer is idle. -/
def State.wake (s : State) : State :=
  { s with
    timer := none
    seq := { s.seq with wait := .none } }

/-! ### Moves of the sequencer -/

/-- The rows of the band that starts at row `y`: `min(b, h - y)` with banding on, `h` with banding off (R141, R171). -/
def State.rowsAt (s : State) (y : Nat) : Nat :=
  if 0 < s.bandRows then min s.bandRows (s.height - y) else s.height

/-- *advance* out of RESET: the first band's header (R171). -/
def State.toFirstBand (s : State) : State :=
  { s with seq := { s.seq with phase := .hdr, y := 0, rows := s.rowsAt 0, off := 0 } }

/-- *advance* out of HDR: the band's body (R171). -/
def State.toBody (s : State) : State :=
  { s with seq := { s.seq with phase := .body, off := 0 } }

/-- *advance* out of BODY with banding on, up to its band pause (R171). -/
def State.toGap (s : State) : State :=
  { s with seq := { s.seq with phase := .gap } }

/-- *advance* out of GAP to the next band, `Y + b < h` (R171; ROWS uses the new Y). -/
def State.toNextBand (s : State) : State :=
  { s with
    seq :=
      { s.seq with
        phase := .hdr
        y := s.seq.y + s.bandRows
        rows := min s.bandRows (s.height - (s.seq.y + s.bandRows))
        off := 0 } }

/-- *advance* to the Feed command (R171). -/
def State.toFeed (s : State) : State :=
  { s with seq := { s.seq with phase := .feed, off := 0 } }

/-- *advance* out of FEED: the job is done (R187). -/
def State.finish (s : State) : State :=
  { s.flagDone with seq := { s.seq with phase := .idle } }

/-- RENDER goes on with the given stage (R185). -/
def State.toStage (st : Stage) (s : State) : State := { s with stage := st }

/-- The end of RENDER: `SEQ <- (RESET, 0, 0, 0, NONE, 0)` (R185). -/
def State.toTransmit (s : State) : State :=
  { s with
    stage := .luma
    seq := { phase := .reset, y := 0, rows := 0, off := 0, wait := .none, nwr := 0 } }

/-! ### START -/

/-- `JOB <- CFG` (R181). -/
def State.latch (s : State) : State := { s with job := s.cfg }

/-- Fallback to the default mode: a reserved JOB.QMODE becomes 1 and FALLBACK is set (R183, R67). -/
def State.resolveFallback (s : State) : State :=
  if 5 ≤ s.job.qmode.toNat then
    { s with job := { s.job with qmode := 1#3 } }.flagFallback
  else s

/-- The input checks, in order; the number of the first that fails (R182). -/
def checkJob (maxPix : Nat) (j : Cfg) : Option (BitVec 32) :=
  if j.w.toNat = 0 then some 1#32
  else if j.h.toNat = 0 then some 2#32
  else if maxPix < j.w.toNat * j.h.toNat then some 3#32
  else if j.chunkSize.toNat = 0 then some 4#32
  else none

/-- The job is accepted: BUSY, and RENDER is next (R180). -/
def State.enterRender (s : State) : State :=
  { s.flagBusy with
    stage := .luma
    seq := { s.seq with phase := .render } }

/-- START (R180): guard, clear, latch, fallback, checks, run; one atomic step. -/
def State.startJob (maxPix : Nat) (s : State) : State :=
  if s.status.busy then s.raise .busyReject
  else
    let j := s.clearFlags.latch.resolveFallback
    match checkJob maxPix j.job with
    | some check => j.raise (.input check)
    | none => j.enterRender

/-! ### Hardware reset -/

/-- A hardware reset (R230 to R232): every register and the position back to their reset values, the memories unwritten,
their contents new free values. What was handed to the link stays handed over, and the other agents' moves go on
(log 13, 15). -/
def State.hardwareReset (s : State) : State :=
  { State.reset with
    history := s.history
    turns := s.turns
    hostData := s.hostData
    resets := s.resets + 1
    draws := s.draws }

end Sys2Proof.Machine
end

