-- ==== Sys2Proof/Machine/Job.lean ====
section
/-! DEFINITION. START (46_job.md). -/

namespace Sys2Proof.Machine

open Sys2Proof

/-- START (R180). -/
def execStart (s : State) : Host.Outcome State Fault Refusal :=
  .next (s.startJob Params.adopted.maxPix)

end Sys2Proof.Machine
end

