-- ==== Sys2Proof/Machine/Luma.lean ====
section
/-! DEFINITION. Stage 1, LUMA (40_luma.md). -/

namespace Sys2Proof.Machine

open Sys2Proof

/-- LUMA over the grid (R80): `LUM[y][x] <- LUMA_FN(PIX[y][x].R, .G, .B)`; alpha takes no part (R82). -/
def lumaGrid (p : Params) (pix : Nat → Pixel) (w h : Nat) (lum : Mem LumNum) : Mem LumNum :=
  forGrid w h
    (fun y x m =>
      let px := pix (pixelAddr w x y)
      memSet m (pixelAddr w x y) ((p.lumaFn px.r px.g px.b).toNat : LumNum))
    lum

/-- LUMA for any parameters; TONE is next (R185). -/
def lumaStage (p : Params) (s : State) : State :=
  { s with lum := lumaGrid p s.readPix s.width s.height s.lum }.toStage .tone

/-- LUMA (R80). -/
def execLuma (s : State) : Host.Outcome State Fault Refusal :=
  .next (lumaStage Params.adopted s)

end Sys2Proof.Machine
end

