-- ==== Sys2Proof/Machine/Pack.lean ====
section
/-! DEFINITION. Stage 4, PACK (43_pack.md). -/

namespace Sys2Proof.Machine

open Sys2Proof

/-- One bit of a packed byte: 1 iff the pixel is in the row and its value is 0; padding is 0 (R130, R132, R134). -/
def packBit (lum : Nat → LumNum) (w x y : Nat) : Nat :=
  if x < w ∧ lum (pixelAddr w x y) = 0 then 1 else 0

/-- Byte `xb` of row `y`: eight bits, the leftmost pixel first, each shifted in from the right (R130, R46). -/
def packByte (lum : Nat → LumNum) (w y xb : Nat) : Byte :=
  BitVec.ofNat 8 (forUp 8 (fun bit byte => byte * 2 + packBit lum w (xb * 8 + bit) y) 0)

/-- PACK over the grid: `PK[y * rowBytes + xb]` for every row and every byte of it (R130). -/
def packGrid (lum : Nat → LumNum) (w h : Nat) (pk : List Host.Cell) : List Host.Cell :=
  forUp h (fun y => forUp (rowBytesOf w) (fun xb m => memSet m (packAddr w y xb) (packByte lum w y xb))) pk

/-- PACK, then the transmit part begins (R185). -/
def packStage (s : State) : State :=
  { s with pk := packGrid s.readLum s.width s.height s.pk }.toTransmit

/-- PACK (R130). -/
def execPack (s : State) : Host.Outcome State Fault Refusal := .next (packStage s)

end Sys2Proof.Machine
end

