-- ==== Sys2Proof/Machine/Tone.lean ====
section
/-! DEFINITION. Stage 2, TONE (41_tone.md). -/

namespace Sys2Proof.Machine

open Sys2Proof

/-- Replace every element of the grid by a function of its position and value (TONE and the order-independent modes). -/
def mapGrid (free : Nat → LumNum) (w h : Nat) (f : Nat → Nat → LumNum → LumNum) (lum : Mem LumNum) : Mem LumNum :=
  forGrid w h
    (fun y x m => memSet m (pixelAddr w x y) (f x y (memRead free m (pixelAddr w x y))))
    lum

/-- `gamma <= 0 or gamma = 1`, with `gamma = sext(GAMMA) / 256` (R91, R13). -/
def toneBypassed (gamma : Half) : Bool :=
  decide (gamma.toInt ≤ 0) || decide (gamma.toInt = 256)

/-- TONE over the grid (R90): nothing when bypassed, else the curve for `gamma = sext(GAMMA) / 256`. -/
def toneGrid (p : Params) (free : Nat → LumNum) (gamma : Half) (w h : Nat) (lum : Mem LumNum) : Mem LumNum :=
  if toneBypassed gamma then lum
  else mapGrid free w h (fun _ _ v => p.toneFn gamma.toInt.toNat 256 v) lum

/-- TONE for any parameters; QUANT is next (R185). -/
def toneStage (p : Params) (s : State) : State :=
  { s with
    lum := toneGrid p (Config.lumAtReset s.resets) s.job.gamma s.width s.height s.lum }.toStage .quant

/-- TONE (R90). -/
def execTone (s : State) : Host.Outcome State Fault Refusal :=
  .next (toneStage Params.adopted s)

end Sys2Proof.Machine
end

