-- ==== Sys2Proof/Machine/Quant.lean ====
section
/-! DEFINITION. Stage 3, the five quantizers and the three reserved codes (42_quantizer.md, R67). 0 is black, 255 white. -/

namespace Sys2Proof.Machine

open Sys2Proof

/-- `newp = 0 if oldp < 128 else 255` (R103, R112; the constant level of R106). -/
def decide128 (oldp : LumNum) : LumNum := if oldp < 128 then 0 else 255

/-! ### Error diffusion -/

/-- `add(x', y', delta)` of R103: into the neighbour when it lies in the grid, else nothing (R48, R105). -/
def addShare (p : Params) (free : Nat → LumNum) (w h : Nat) (x y : Int) (delta : LumNum) (m : Mem LumNum) : Mem LumNum :=
  if inGrid w h x y then
    memSet m (pixelAddr w x.toNat y.toNat) (p.rnd (memRead free m (pixelAddr w x.toNat y.toNat) + delta))
  else m

/-- A neighbour's share of the error: its offset and the amount. -/
structure Share where
  dx : Int
  dy : Int
  amount : LumNum
  deriving DecidableEq, Repr

/-- Visit pixel `(x, y)`: decide it and add the shares of the error to its neighbours, one after the other. -/
def visit (p : Params) (free : Nat → LumNum) (shares : LumNum → List Share) (w h x y : Nat) (m : Mem LumNum) : Mem LumNum :=
  let oldp := memRead free m (pixelAddr w x y)
  let newp := decide128 oldp
  (shares (p.rnd (oldp - newp))).foldl
    (fun m t => addShare p free w h (x + t.dx) (y + t.dy) t.amount m)
    (memSet m (pixelAddr w x y) newp)

/-- The share `err * k / 16`, each operation rounded (R103, R125). -/
def sixteenth (p : Params) (err : LumNum) (k : LumNum) : LumNum := p.rnd (p.rnd (err * k) / 16)

/-- The four shares of Q.FS in scan direction `d` (R104). -/
def fsShares (p : Params) (d : Int) (err : LumNum) : List Share :=
  [⟨d, 0, sixteenth p err 7⟩,
   ⟨-d, 1, sixteenth p err 3⟩,
   ⟨0, 1, sixteenth p err 5⟩,
   ⟨d, 1, sixteenth p err 1⟩]

/-- Q.FS over the grid: even rows left to right, odd rows right to left (R102, R103). -/
def fsGrid (p : Params) (free : Nat → LumNum) (w h : Nat) (lum : Mem LumNum) : Mem LumNum :=
  forUp h
    (fun y m =>
      if y % 2 = 0 then forUp w (fun x => visit p free (fsShares p 1) w h x y) m
      else forDown w (fun x => visit p free (fsShares p (-1)) w h x y) m)
    lum

/-- The six shares of Q.ATK, each the whole `err = (oldp - newp) / 8` (R111). -/
def atkShares (p : Params) (diff : LumNum) : List Share :=
  let err := p.rnd (diff / 8)
  [⟨1, 0, err⟩,
   ⟨2, 0, err⟩,
   ⟨-1, 1, err⟩,
   ⟨0, 1, err⟩,
   ⟨1, 1, err⟩,
   ⟨0, 2, err⟩]

/-- Q.ATK over the grid: every row left to right (R110). -/
def atkGrid (p : Params) (free : Nat → LumNum) (w h : Nat) (lum : Mem LumNum) : Mem LumNum :=
  forGrid w h (fun y x => visit p free (atkShares p) w h x y) lum

/-! ### Order-independent modes -/

/-- `0 if p < t else 255` (R101). -/
def thresholdPoint (t : Nat) (v : LumNum) : LumNum := if v < t then 0 else 255

/-- The ordered rule for the matrix `M` of size `n x n`, row index from `y` (R115). -/
def orderedPoint (n : Nat) (matrix : Nat → Nat → Nat) (x y : Nat) (v : LumNum) : LumNum :=
  if ((2 * n * n : Nat) : LumNum) * v < ((255 * (2 * matrix (y % n) (x % n) + 1) : Nat) : LumNum) then 0 else 255

/-! ### The stage, for any parameters -/

/-- The free values of unwritten LUM elements (log 4). -/
def State.lumFree (s : State) : Nat → LumNum := Config.lumAtReset s.resets

/-- QUANT writes LUM; PACK is next (R185). -/
def quantStage (s : State) (lum : Mem LumNum) : State :=
  { s with lum := lum }.toStage .pack

/-- Q.THRESH (R101). -/
def threshStage (s : State) : State :=
  quantStage s (mapGrid s.lumFree s.width s.height (fun _ _ v => thresholdPoint s.job.thresh.toNat v) s.lum)

/-- Q.FS (R103). -/
def fsStage (p : Params) (s : State) : State :=
  quantStage s (fsGrid p s.lumFree s.width s.height s.lum)

/-- Q.ATK (R110). -/
def atkStage (p : Params) (s : State) : State :=
  quantStage s (atkGrid p s.lumFree s.width s.height s.lum)

/-- Q.ORD4 (R118). -/
def ord4Stage (p : Params) (s : State) : State :=
  quantStage s (mapGrid s.lumFree s.width s.height (orderedPoint 4 p.bayer4) s.lum)

/-- Q.ORD8 (R119). -/
def ord8Stage (p : Params) (s : State) : State :=
  quantStage s (mapGrid s.lumFree s.width s.height (orderedPoint 8 p.bayer8) s.lum)

/-- A reserved code acts as the default mode: JOB.QMODE becomes 1, FALLBACK is set, and Q.FS runs (R67, log 19). -/
def reservedStage (p : Params) (s : State) : State :=
  fsStage p { s with job := { s.job with qmode := 1#3 } }.flagFallback

/-! ### The meanings -/

/-- Q.THRESH (R101). -/
def execQThresh (s : State) : Host.Outcome State Fault Refusal := .next (threshStage s)

/-- Q.FS (R103). -/
def execQFs (s : State) : Host.Outcome State Fault Refusal := .next (fsStage Params.adopted s)

/-- Q.ATK (R110). -/
def execQAtk (s : State) : Host.Outcome State Fault Refusal := .next (atkStage Params.adopted s)

/-- Q.ORD4 (R118). -/
def execQOrd4 (s : State) : Host.Outcome State Fault Refusal := .next (ord4Stage Params.adopted s)

/-- Q.ORD8 (R119). -/
def execQOrd8 (s : State) : Host.Outcome State Fault Refusal := .next (ord8Stage Params.adopted s)

/-- Q.RESERVED5 (R67). -/
def execQReserved5 (s : State) : Host.Outcome State Fault Refusal := .next (reservedStage Params.adopted s)

/-- Q.RESERVED6 (R67). -/
def execQReserved6 (s : State) : Host.Outcome State Fault Refusal := .next (reservedStage Params.adopted s)

/-- Q.RESERVED7 (R67). -/
def execQReserved7 (s : State) : Host.Outcome State Fault Refusal := .next (reservedStage Params.adopted s)

end Sys2Proof.Machine
end

