-- ==== Sys2Proof/Machine/Transmit.lean ====
section
/-! DEFINITION. The Band Framer and the Chunked Transport (44_framer.md, 45_transport.md): TX.RESET, TX.HDR, TX.BODY, TX.FEED,
CHUNK and SLEEP. Each is one atomic step of the sequencer (R166): a TX operation starts CHUNK on its buffer and emits the first
slice, CHUNK emits each further slice, SLEEP starts a pause; what comes between is LINK's or TIMER's move (log 3). -/

namespace Sys2Proof.Machine

open Sys2Proof

/-- TX.RESET (R140): `CHUNK([0x1B, 0x40])`. -/
def execTxReset (s : State) : Host.Outcome State Fault Refusal :=
  .next (s.transmit .reset resetBytes)

/-- TX.HDR (R142): CHUNK of the raster header with these two fields. -/
def execTxHdr (rowBytes rows : Half) (s : State) : Host.Outcome State Fault Refusal :=
  .next (s.transmit .hdr (headerBytes rowBytes.toNat rows.toNat))

/-- TX.BODY (R143): `CHUNK(PK[y * rowBytes : (y + rows) * rowBytes])`. -/
def execTxBody (y rows : Nat) (s : State) : Host.Outcome State Fault Refusal :=
  .next (s.transmit .body (s.bandBytes y rows))

/-- TX.FEED (R145): `CHUNK([0x0A, 0x0A])`. -/
def execTxFeed (s : State) : Host.Outcome State Fault Refusal :=
  .next (s.transmit .feed feedBytes)

/-- CHUNK (R160), one pass of its loop. -/
def execChunk (buf : List Byte) (s : State) : Host.Outcome State Fault Refusal :=
  .next (s.chunk buf)

/-- The pause a SLEEP is. -/
def State.pause (p : Pause) (s : State) : State :=
  match p with
  | .chunk => s.pauseChunk
  | .band => s.pauseBand

/-- SLEEP (R163, R147). While a write or another pause is pending nothing happens. -/
def execSleep (p : Pause) (s : State) : Host.Outcome State Fault Refusal :=
  .next (if s.seq.wait = .none then s.pause p else s)

end Sys2Proof.Machine
end

