-- ==== Sys2Proof/Machine/Dispatch.lean ====
section
/-! DEFINITION. exec: one arm per constructor of Instr. -/

namespace Sys2Proof.Machine

open Sys2Proof

def exec (i : Instr) (s : State) : Host.Outcome State Fault Refusal :=
  match i with
  | .txReset => Sys2Proof.Machine.execTxReset s
  | .txHdr rowBytes rows => Sys2Proof.Machine.execTxHdr rowBytes rows s
  | .txFeed => Sys2Proof.Machine.execTxFeed s
  | .txBody y rows => Sys2Proof.Machine.execTxBody y rows s
  | .qThresh => Sys2Proof.Machine.execQThresh s
  | .qFs => Sys2Proof.Machine.execQFs s
  | .qAtk => Sys2Proof.Machine.execQAtk s
  | .qOrd4 => Sys2Proof.Machine.execQOrd4 s
  | .qOrd8 => Sys2Proof.Machine.execQOrd8 s
  | .qReserved5 => Sys2Proof.Machine.execQReserved5 s
  | .qReserved6 => Sys2Proof.Machine.execQReserved6 s
  | .qReserved7 => Sys2Proof.Machine.execQReserved7 s
  | .start => Sys2Proof.Machine.execStart s
  | .luma => Sys2Proof.Machine.execLuma s
  | .tone => Sys2Proof.Machine.execTone s
  | .pack => Sys2Proof.Machine.execPack s
  | .chunk buf => Sys2Proof.Machine.execChunk buf s
  | .sleep p => Sys2Proof.Machine.execSleep p s

end Sys2Proof.Machine
end

