-- ==== Sys2Proof/Machine/HostPort.lean ====
section
/-! DEFINITION. The host's accesses other than START (10_state.md R10, R20 to R22, R28, R29; 46_job.md R189). -/

namespace Sys2Proof.Machine

open Sys2Proof

/-- What a read of a register returns (R10, R20, R21, R22): CTRL reads 0, the others their contents. The spec gives the read
data no width: that it is a word of 32 bits in which a narrower register, the signed GAMMA included, stands in the low bits
with zeros above is the model's choice (DESIGN CHOICE, log 22). -/
def State.regWord (s : State) (r : Reg) : BitVec 32 :=
  match r with
  | .w => s.cfg.w.setWidth 32
  | .h => s.cfg.h.setWidth 32
  | .gamma => s.cfg.gamma.setWidth 32
  | .qmode => s.cfg.qmode.setWidth 32
  | .thresh => s.cfg.thresh.setWidth 32
  | .chunkSize => s.cfg.chunkSize.setWidth 32
  | .bandRows => s.cfg.bandRows.setWidth 32
  | .bandDelay => s.cfg.bandDelay.setWidth 32
  | .chunkDelay => s.cfg.chunkDelay.setWidth 32
  | .ctrl => 0#32
  | .status => s.status.word.setWidth 32
  | .errinfo => s.errinfo

/-- The register numbers (R10, R20, R21, R22). -/
def Reg.number : Reg → Nat
  | .w => 0
  | .h => 1
  | .gamma => 2
  | .qmode => 3
  | .thresh => 4
  | .chunkSize => 5
  | .bandRows => 6
  | .bandDelay => 7
  | .chunkDelay => 8
  | .ctrl => 9
  | .status => 10
  | .errinfo => 11

/-- The host gets a value back. -/
def State.answer (d : HostData) (s : State) : State := { s with hostData := d }

/-- The host gets an unspecified value back: a free value, a new one each time (R28, log 5). -/
def State.answerFree (d : Nat → HostData) (s : State) : State :=
  { s with hostData := d s.draws, draws := s.draws + 1 }

/-- Write a PIX element: ignored while BUSY, without any error (R28, R238, U15); otherwise stored (R29). -/
def hostWritePix (maxPix i : Nat) (px : Pixel) (s : State) : Host.Outcome State Fault Refusal :=
  if s.status.busy then .next s
  else if maxPix ≤ i then .fault (.noSuchElement i)
  else .next { s with pix := memSet s.pix i px }

/-- Read a PIX element: its contents while not BUSY (R29); during a job the spec gives no value (log 5). -/
def hostReadPix (maxPix i : Nat) (s : State) : Host.Outcome State Fault Refusal :=
  if maxPix ≤ i then .fault (.noSuchElement i)
  else if s.status.busy then .next (s.answerFree fun n => .pixel (Config.unspecifiedPixel n))
  else .next (s.answer (.pixel (s.readPix i)))

/-- The capacity of PK in bytes, 8192 x 65535 (10_state.md section 9). -/
def pkCapacity : Nat := 8192 * 65535

/-- Read a PK byte: its contents while not BUSY (R29), an unspecified value during a job (R28, U14). -/
def hostReadPk (i : Nat) (s : State) : Host.Outcome State Fault Refusal :=
  if pkCapacity ≤ i then .fault (.noSuchElement i)
  else if s.status.busy then .next (s.answerFree fun n => .byte (Config.unspecifiedByte n))
  else .next (s.answer (.byte (s.readPk i)))

/-- Read a LUM element: never readable, so always an unspecified value (R28, R29, log 5). -/
def hostReadLum (maxPix i : Nat) (s : State) : Host.Outcome State Fault Refusal :=
  if maxPix ≤ i then .fault (.noSuchElement i)
  else .next (s.answerFree fun n => .num (Config.unspecifiedNum n))

/-- A host action other than a START: CFG is written at any time (R10), CTRL <- 0 does nothing (R20), STATUS and ERRINFO are
read-only (R21, R22, log 14), registers are read whole (D26). -/
def hostAccess (maxPix : Nat) (a : HostAction) (s : State) : Host.Outcome State Fault Refusal :=
  match a with
  | .setW v => .next { s with cfg := { s.cfg with w := v } }
  | .setH v => .next { s with cfg := { s.cfg with h := v } }
  | .setGamma v => .next { s with cfg := { s.cfg with gamma := v } }
  | .setQmode v => .next { s with cfg := { s.cfg with qmode := v } }
  | .setThresh v => .next { s with cfg := { s.cfg with thresh := v } }
  | .setChunkSize v => .next { s with cfg := { s.cfg with chunkSize := v } }
  | .setBandRows v => .next { s with cfg := { s.cfg with bandRows := v } }
  | .setBandDelay v => .next { s with cfg := { s.cfg with bandDelay := v } }
  | .setChunkDelay v => .next { s with cfg := { s.cfg with chunkDelay := v } }
  | .writeCtrl _ => .next s
  | .writeStatus _ => .next s
  | .writeErrinfo _ => .next s
  | .readReg r => .next (s.answer (.reg (s.regWord r)))
  | .writePix i px => hostWritePix maxPix i px s
  | .readPix i => hostReadPix maxPix i s
  | .readPk i => hostReadPk i s
  | .readLum i => hostReadLum maxPix i s

end Sys2Proof.Machine
end

