-- ==== Sys2Proof/Machine/Fetch.lean ====
section
/-! DEFINITION. What the next step is: which agent moves, and which operation its move runs. Nothing is fetched from memory
(30 section 7): the position of SEQ, the latched QMODE code and the host's CTRL write select the operation. -/

namespace Sys2Proof.Machine

open Sys2Proof

/-- The next step of the machine. -/
inductive Fetched where
  /-- Operation `i` runs on `s`. -/
  | run (i : Instr) (s : State)
  /-- A step that runs no operation. -/
  | quiet (o : Host.Outcome State Fault Refusal)

/-- The TX operation of a sending phase, with the operands of the position (R140 to R145). -/
def txOperation (s : State) : Instr :=
  match s.seq.phase with
  | .hdr => .txHdr (BitVec.ofNat 16 s.rowBytes) (BitVec.ofNat 16 s.seq.rows)
  | .body => .txBody s.seq.y s.seq.rows
  | .feed => .txFeed
  | .reset => .txReset
  | .idle => .txReset
  | .render => .txReset
  | .gap => .txReset

/-- Step *advance* (R171), for the phases that end a buffer and for GAP. Out of BODY with banding on it runs the band pause. -/
def advance (s : State) : Fetched :=
  match s.seq.phase with
  | .reset => .quiet (.next s.toFirstBand)
  | .hdr => .quiet (.next s.toBody)
  | .body => if 0 < s.bandRows then .run (.sleep .band) s.toGap else .quiet (.next s.toFeed)
  | .gap => .quiet (.next (if s.seq.y + s.bandRows < s.height then s.toNextBand else s.toFeed))
  | .feed => .quiet (.next s.finish)
  | .idle => .quiet (.next s)
  | .render => .quiet (.next s)

/-- A sending phase with nothing outstanding: *issue* while bytes are left (the TX operation for the first slice, CHUNK for the
rest), *advance* when the whole buffer is out (R166, R171). -/
def sendStep (s : State) : Fetched :=
  if s.seq.off < s.cur.length then
    if s.seq.off = 0 then .run (txOperation s) s else .run (.chunk s.cur) s
  else if s.seq.off = s.cur.length then advance s
  else .quiet (.next s)

/-- RENDER: the next stage; QUANT is the operation JOB.QMODE selects (R185, R100). -/
def renderStep (s : State) : Fetched :=
  match s.stage with
  | .luma => .run .luma s
  | .tone => .run .tone s
  | .quant => .run (decodeQmode s.job.qmode) s
  | .pack => .run .pack s

/-- SEQ's move: nothing while it waits or is idle (R175, R217). -/
def seqTurn (s : State) : Fetched :=
  match s.seq.phase with
  | .idle => .quiet (.next s)
  | .render => renderStep s
  | .reset => if s.seq.wait = .none then sendStep s else .quiet (.next s)
  | .hdr => if s.seq.wait = .none then sendStep s else .quiet (.next s)
  | .body => if s.seq.wait = .none then sendStep s else .quiet (.next s)
  | .feed => if s.seq.wait = .none then sendStep s else .quiet (.next s)
  | .gap => if s.seq.wait = .none then advance s else .quiet (.next s)

/-- LINK's move: *complete-ok*, which ends in the chunk pause (R167), or *complete-fail* (R168). With no write outstanding the
signal is ignored (R231, log 20). -/
def linkTurn (a : LinkAnswer) (s : State) : Fetched :=
  if s.seq.wait = .write then
    match a with
    | .ok => .run (.sleep .chunk) s.sliceSent
    | .fail => .quiet (.next (s.raise .transport))
  else .quiet (.next s)

/-- TIMER's move: *wake* (R169). With no sleep pending it has no effect (log 20). -/
def timerTurn (s : State) : Fetched :=
  if s.seq.wait = .csleep ∨ s.seq.wait = .bsleep then .quiet (.next s.wake) else .quiet (.next s)

/-- The host's move: a write of 1 to CTRL is START (R20, R180), everything else an access. -/
def hostTurn (maxPix : Nat) (a : HostAction) (s : State) : Fetched :=
  match a with
  | .writeCtrl v =>
    match decodeCtrl v with
    | some i => .run i s
    | none => .quiet (hostAccess maxPix (.writeCtrl v) s)
  | a => .quiet (hostAccess maxPix a s)

/-- One turn. -/
def turnStep (t : Turn) (s : State) : Fetched :=
  match t with
  | .seq => seqTurn s
  | .link a => linkTurn a s
  | .timer => timerTurn s
  | .host a => hostTurn Params.adopted.maxPix a s
  | .reset => .quiet (.next s.hardwareReset)

/-- The turn that is next: the first listed one, and SEQ's when none is listed (log 1). -/
def State.nextTurn (s : State) : Turn := s.turns.headD .seq

/-- The state with the next turn taken off the list. -/
def State.popTurn (s : State) : State := { s with turns := s.turns.tail }

/-- The next step. -/
def fetch (s : State) : Fetched := turnStep s.nextTurn s.popTurn

/-! ### Placing an operation where the next step runs it (log 18) -/

/-- A width `w` with `ceil(w / 8) = rowBytes`, for `rowBytes` up to 8192. -/
def widthFor (rowBytes : Nat) : Half := BitVec.ofNat 16 (min (8 * rowBytes) 65535)

/-- SEQ at the start of a sending phase. -/
def State.atPhase (phase : Phase) (s : State) : State :=
  { s with
    seq := { s.seq with phase := phase, off := 0, wait := .none }
    turns := .seq :: s.turns }

/-- RENDER at the given stage. -/
def State.atStage (st : Stage) (s : State) : State :=
  { s with
    stage := st
    seq := { s.seq with phase := .render }
    turns := .seq :: s.turns }

/-- RENDER at QUANT with the given latched code. -/
def State.atQuant (code : BitVec 3) (s : State) : State :=
  { s with job := { s.job with qmode := code } }.atStage .quant

/-- Put SEQ, the latched job and the next turn so that the very next step runs `i`. CHUNK with an arbitrary buffer and SLEEP
run only inside a job, and no table word decodes to them; they are left where they are. -/
def State.placeInstr (i : Instr) (s : State) : State :=
  match i with
  | .txReset => s.atPhase .reset
  | .txHdr rowBytes rows =>
    { s with
      job := { s.job with w := widthFor rowBytes.toNat }
      seq := { s.seq with rows := rows.toNat } }.atPhase .hdr
  | .txFeed => s.atPhase .feed
  | .txBody y rows => { s with seq := { s.seq with y := y, rows := rows } }.atPhase .body
  | .qThresh => s.atQuant 0#3
  | .qFs => s.atQuant 1#3
  | .qAtk => s.atQuant 2#3
  | .qOrd4 => s.atQuant 3#3
  | .qOrd8 => s.atQuant 4#3
  | .qReserved5 => s.atQuant 5#3
  | .qReserved6 => s.atQuant 6#3
  | .qReserved7 => s.atQuant 7#3
  | .start => { s with turns := .host (.writeCtrl 1#1) :: s.turns }
  | .luma => s.atStage .luma
  | .tone => s.atStage .tone
  | .pack => s.atStage .pack
  | .chunk _ => s
  | .sleep _ => s

/-- A table word placed where the next step runs it; a word the decoder refuses changes nothing. -/
def placeWord (s : State) (nbits w : Nat) : State :=
  match decodeTableWord nbits w with
  | some i => s.placeInstr i
  | none => s

end Sys2Proof.Machine
end

