-- ==== Sys2Proof/Machine/Step.lean ====
section
/-! DEFINITION. One step of the machine, and where a table word is placed for it. -/

namespace Sys2Proof.Machine

open Sys2Proof

/-- What a fetched step answers: where it runs an operation, exec gives its effect. -/
def Fetched.outcome : Fetched → Host.Outcome State Fault Refusal
  | .run i s => exec i s
  | .quiet o => o

/-- One atomic step: the next agent's move. -/
def step (s : State) : Host.Outcome State Fault Refusal := (fetch s).outcome

/-- `s` with the instruction of a table word placed where step takes its next operation (log 18). -/
def State.withFetchWord (s : State) (nbits w : Nat) : State := placeWord s nbits w

end Sys2Proof.Machine
end

