-- ==== Sys2Proof/Machine/Schedule.lean ====
section
/-! DEFINITION. A job as a function: the band partition (R141), the slices of a buffer (R161), the schedule (R170), the byte
stream (R65) and the rendered bitmap (R186), and what of the schedule is still to come at a position of the sequencer (R172).
No step of the machine uses them; statements compare the step machine with them. -/

namespace Sys2Proof.Machine

open Sys2Proof

/-- `ceil(a / b)` (00_scope.md 5.1). -/
def ceilDiv (a b : Nat) : Nat := (a + b - 1) / b

/-- The bands of a job, as `(y, rows)`, top to bottom (R141). -/
def bandsOf (b h : Nat) : List (Nat × Nat) :=
  if 0 < b then (List.range (ceilDiv h b)).map fun i => (i * b, min b (h - i * b)) else [(0, h)]

/-- The slices CHUNK cuts a buffer into (R161, R170). -/
def slicesOf (cs : Nat) (buf : List Byte) : List (List Byte) :=
  (List.range (ceilDiv buf.length cs)).map fun k => byteRange buf (k * cs) (min ((k + 1) * cs) buf.length)

/-- An action of the schedule (R170). -/
inductive Action where
  | write (bytes : List Byte)
  | sleep (ms : Half)
  deriving DecidableEq, Repr

/-- The payload of an action. -/
def Action.bytes : Action → List Byte
  | .write bs => bs
  | .sleep _ => []

/-- The action an emitted event is; the record of a failed write is none. -/
def Event.action : Event → Option Action
  | .write _ bs => some (.write bs)
  | .sleep ms => some (.sleep ms)
  | .failed _ => none

/-- The actions emitted so far. -/
def State.emitted (s : State) : List Action := s.history.filterMap Event.action

/-- A pause of `ms`, no action when that is 0 (D13). -/
def pauseActions (ms : Half) : List Action := if 0 < ms.toNat then [.sleep ms] else []

/-- `chunk(buf)` of R170: each slice, then the chunk pause. -/
def chunkActions (cs : Nat) (cd : Half) (buf : List Byte) : List Action :=
  (slicesOf cs buf).flatMap fun sl => .write sl :: pauseActions cd

/-- `chunk(buf)` with the job's chunk size and chunk pause. -/
def State.chunked (s : State) (buf : List Byte) : List Action :=
  chunkActions s.chunkSize s.job.chunkDelay buf

/-- The band pause as actions: none with banding off (R147). -/
def State.bandPause (s : State) : List Action :=
  if 0 < s.bandRows then pauseActions s.job.bandDelay else []

/-- The frame of a band and its pause (R64, R170). -/
def State.frameActions (s : State) (band : Nat × Nat) : List Action :=
  s.chunked (headerBytes s.rowBytes band.2) ++ s.chunked (s.bandBytes band.1 band.2) ++ s.bandPause

/-- The bands of the latched job. -/
def State.bands (s : State) : List (Nat × Nat) := bandsOf s.bandRows s.height

/-- The schedule of the job (R170). -/
def State.schedule (s : State) : List Action :=
  s.chunked resetBytes ++ s.bands.flatMap s.frameActions ++ s.chunked feedBytes

/-- The byte stream of the whole job (R65). -/
def State.stream (s : State) : List Byte :=
  resetBytes ++ s.bands.flatMap (fun band => headerBytes s.rowBytes band.2 ++ s.bandBytes band.1 band.2) ++ feedBytes

/-- The bands below the one that starts at row `y`. -/
def State.bandsBelow (s : State) (y : Nat) : List (Nat × Nat) := s.bands.filter fun band => decide (y < band.1)

/-- What is left of the current buffer: the outstanding slice was emitted, its chunk pause is still to come. -/
def State.restOfBuffer (s : State) : List Action :=
  if s.seq.wait = .write then
    pauseActions s.job.chunkDelay ++ s.chunked (s.cur.drop (s.seq.off + s.sliceLen s.cur.length))
  else s.chunked (s.cur.drop s.seq.off)

/-- The schedule's actions that are still to come at the position of SEQ (R172). -/
def State.remaining (s : State) : List Action :=
  match s.seq.phase with
  | .idle => []
  | .render => s.schedule
  | .reset => s.restOfBuffer ++ s.bands.flatMap s.frameActions ++ s.chunked feedBytes
  | .hdr =>
    s.restOfBuffer ++ s.chunked (s.bandBytes s.seq.y s.seq.rows) ++ s.bandPause
      ++ (s.bandsBelow s.seq.y).flatMap s.frameActions ++ s.chunked feedBytes
  | .body =>
    s.restOfBuffer ++ s.bandPause ++ (s.bandsBelow s.seq.y).flatMap s.frameActions ++ s.chunked feedBytes
  | .gap => (s.bandsBelow s.seq.y).flatMap s.frameActions ++ s.chunked feedBytes
  | .feed => s.restOfBuffer

/-- QUANT for a mode code, as a function of the toned grid (R100). -/
def quantGrid (p : Params) (free : Nat → LumNum) (mode : BitVec 3) (thresh : BitVec 8) (w h : Nat) (lum : Mem LumNum) : Mem LumNum :=
  match decodeQmode mode with
  | .qThresh => mapGrid free w h (fun _ _ v => thresholdPoint thresh.toNat v) lum
  | .qAtk => atkGrid p free w h lum
  | .qOrd4 => mapGrid free w h (orderedPoint 4 p.bayer4) lum
  | .qOrd8 => mapGrid free w h (orderedPoint 8 p.bayer8) lum
  | _ => fsGrid p free w h lum

/-- The whole render of a job: `quant(tone(luma(PIX)))` (R186), from an empty LUM. -/
def renderGrid (p : Params) (free : Nat → LumNum) (pix : Nat → Pixel) (j : Cfg) : Mem LumNum :=
  quantGrid p free j.qmode j.thresh j.w.toNat j.h.toNat
    (toneGrid p free j.gamma j.w.toNat j.h.toNat (lumaGrid p pix j.w.toNat j.h.toNat []))

/-- The packed byte `i` of the rendered picture (R186): byte `i mod rowBytes` of row `i div rowBytes`. -/
def renderByte (p : Params) (free : Nat → LumNum) (pix : Nat → Pixel) (j : Cfg) (i : Nat) : Byte :=
  packByte (memRead free (renderGrid p free pix j)) j.w.toNat (i / rowBytesOf j.w.toNat) (i % rowBytesOf j.w.toNat)

/-- Unpacking (R133): 0 (black) where the pixel's bit is 1, 255 (white) where it is 0. -/
def unpackPixel (pk : Nat → Byte) (w x y : Nat) : LumNum :=
  if (pk (packAddr w y (x / 8))).toNat / 2 ^ (7 - x % 8) % 2 = 1 then 0 else 255

end Sys2Proof.Machine
end

