-- ==== Sys2Proof/Safety.lean ====
section
/-! DEFINITION. What holds of every state a run reaches: the canonical form of the memories, the consistency of STATUS, JOB, SEQ and the timer,
and the ranges of SEQ's numbers (R21 to R25, R42, R171, R216). -/

namespace Sys2Proof

open Machine

/-- Every memory keeps its canonical form. -/
structure MemoriesCanonical (s : State) : Prop where
  pix : Mem.wf s.pix = true
  lum : Mem.wf s.lum = true
  pk : Mem.wf s.pk = true

/-- STATUS (R21, R24): BUSY exactly while SEQ is not idle; ERRCODE 3 never written; ERR exactly with a code; DONE and ERR exclude
each other and BUSY. -/
structure StatusConsistent (s : State) : Prop where
  busyIffActive : s.status.busy = true ↔ s.seq.phase ≠ .idle
  codeLegal : s.status.errcode.toNat ≤ 2
  errIffCode : s.status.err = true ↔ s.status.errcode.toNat ≠ 0
  doneExcludes : s.status.done = true → s.status.busy = false ∧ s.status.err = false
  errExcludes : s.status.err = true → s.status.busy = false

/-- JOB (R23, R100, R182): no reserved mode; while a job runs the four checks hold. -/
structure JobLegal (s : State) : Prop where
  mode : s.job.qmode.toNat < 5
  width : s.status.busy = true → 1 ≤ s.width
  height : s.status.busy = true → 1 ≤ s.height
  capacity : s.status.busy = true → s.width * s.height ≤ Params.adopted.maxPix
  chunkSize : s.status.busy = true → 1 ≤ s.chunkSize

/-- The four phases in which an outbound buffer is sent. -/
def Machine.Phase.sends : Phase → Bool
  | .reset => true
  | .hdr => true
  | .body => true
  | .feed => true
  | .idle => false
  | .render => false
  | .gap => false

/-- What SEQ waits for, where (R25, R166 to R171), and the timer that goes with it (R216). -/
structure WaitLegal (s : State) : Prop where
  onlyWhileSending : s.seq.wait = .write ∨ s.seq.wait = .csleep → s.seq.phase.sends = true
  bandPauseOnlyInGap : s.seq.wait = .bsleep → s.seq.phase = .gap
  sliceOutstanding : s.seq.wait = .write → s.seq.off < s.cur.length
  timerIdle : s.seq.wait = .none ∨ s.seq.wait = .write → s.timer = none
  timerChunk : s.seq.wait = .csleep → s.timer = some s.job.chunkDelay ∧ 0 < s.job.chunkDelay.toNat
  timerBand : s.seq.wait = .bsleep → s.timer = some s.job.bandDelay ∧ 0 < s.job.bandDelay.toNat ∧ 0 < s.bandRows

/-- The position (R24, R141, R171): OFF inside the buffer; in a band, the band is one of the partition. -/
structure PositionLegal (s : State) : Prop where
  offInBuffer : s.seq.phase.sends = true → s.seq.off ≤ s.cur.length
  atReset : s.seq.phase = .reset → s.seq.y = 0 ∧ s.seq.rows = 0
  bandLegal : s.seq.phase = .hdr ∨ s.seq.phase = .body ∨ s.seq.phase = .gap → (s.seq.y, s.seq.rows) ∈ s.bands
  gapIsBanded : s.seq.phase = .gap → 0 < s.bandRows

/-- At most how many writes can have completed, by phase: every write carries at least one byte. -/
def Machine.State.writeBound (s : State) : Nat :=
  match s.seq.phase with
  | .reset => s.seq.off
  | .hdr => 2 + (8 + s.rowBytes) * s.seq.y + s.seq.off
  | .body => 10 + (8 + s.rowBytes) * s.seq.y + s.seq.off
  | .gap => 2 + (8 + s.rowBytes) * (s.seq.y + s.seq.rows)
  | .feed => 2 + (8 + s.rowBytes) * s.height + s.seq.off
  | .idle => 4 + 8200 * 65535
  | .render => 4 + 8200 * 65535

/-- The ranges of SEQ's numbers (R24): nothing wraps. -/
structure RangesKept (s : State) : Prop where
  y : s.seq.y ≤ 65535
  rows : s.seq.rows ≤ 65535
  off : s.seq.off ≤ 8192 * 65535
  nwr : s.seq.nwr ≤ s.writeBound

/-- RENDER's position: outside RENDER the next stage is LUMA. -/
structure StageLegal (s : State) : Prop where
  outside : s.seq.phase ≠ .render → s.stage = .luma

/-- The invariant of the machine. -/
structure Inv (s : State) : Prop where
  memories : MemoriesCanonical s
  status : StatusConsistent s
  job : JobLegal s
  wait : WaitLegal s
  position : PositionLegal s
  ranges : RangesKept s
  stage : StageLegal s

/-- `k` steps of the machine. -/
def runSteps : Nat → State → Host.Outcome State Fault Refusal
  | 0, s => .next s
  | k + 1, s =>
    match step s with
    | .next t => runSteps k t
    | .fault r => .fault r
    | .refused r => .refused r

/-! ### Words the statements use -/

/-- The visiting order of Q.FS (R102): scan direction, column, row. -/
def serpentine (w h : Nat) : List (Int × Nat × Nat) :=
  (List.range h).flatMap fun y =>
    if y % 2 = 0 then (List.range w).map fun x => ((1 : Int), x, y)
    else (List.range w).reverse.map fun x => ((-1 : Int), x, y)

/-- The visiting order of Q.ATK (R110): column, row. -/
def raster (w h : Nat) : List (Nat × Nat) :=
  (List.range h).flatMap fun y => (List.range w).map fun x => (x, y)

/-- The visits of a part of Q.FS's order. -/
def fsVisits (p : Params) (free : Nat → LumNum) (w h : Nat) (order : List (Int × Nat × Nat)) (m : Mem LumNum) :
    Mem LumNum :=
  order.foldl (fun m v => visit p free (fsShares p v.1) w h v.2.1 v.2.2 m) m

/-- The visits of a part of Q.ATK's order. -/
def atkVisits (p : Params) (free : Nat → LumNum) (w h : Nat) (order : List (Nat × Nat)) (m : Mem LumNum) : Mem LumNum :=
  order.foldl (fun m v => visit p free (atkShares p) w h v.1 v.2 m) m

/-- The weight Q.FS gives the neighbour at offset `(dx, dy)` in scan direction `d` (R104). -/
def fsWeight (d dx dy : Int) : LumNum :=
  if dy = 0 ∧ dx = d then 7 / 16
  else if dy = 1 ∧ dx = -d then 3 / 16
  else if dy = 1 ∧ dx = 0 then 5 / 16
  else if dy = 1 ∧ dx = d then 1 / 16
  else 0

/-- The weight Q.ATK gives the neighbour at offset `(dx, dy)` (R111). -/
def atkWeight (dx dy : Int) : LumNum :=
  if (dx, dy) ∈ [((1 : Int), (0 : Int)), (2, 0), (-1, 1), (0, 1), (1, 1), (0, 2)] then 1 / 8 else 0

/-- The actions up to and including write number `k` (R172). -/
def uptoWrite : Nat → List Action → List Action
  | _, [] => []
  | k, .sleep ms :: rest => .sleep ms :: uptoWrite k rest
  | 0, .write bs :: _ => [.write bs]
  | k + 1, .write bs :: rest => .write bs :: uptoWrite k rest

/-- How many of the actions are writes. -/
def writeCount (l : List Action) : Nat :=
  l.countP fun a => match a with
    | .write _ => true
    | .sleep _ => false

/-- The LINK's answers among the turns. -/
def linkAnswers (l : List Turn) : List LinkAnswer :=
  l.filterMap fun t => match t with
    | .link a => some a
    | _ => none

/-- The transmit part begins: `SEQ = (RESET, 0, 0, 0, NONE, 0)` (R185). -/
def AtTransmitStart (s : State) : Prop :=
  s.seq = { phase := .reset, y := 0, rows := 0, off := 0, wait := .none, nwr := 0 }

/-- The part of a job a phase belongs to: RESET, the bands, FEED (R24). -/
def Machine.Phase.part : Phase → Nat
  | .idle => 0
  | .render => 0
  | .reset => 1
  | .hdr => 2
  | .body => 2
  | .gap => 2
  | .feed => 3

/-- The place of a phase inside a band (R24). -/
def Machine.Phase.inBand : Phase → Nat
  | .hdr => 0
  | .body => 1
  | .gap => 2
  | .idle => 0
  | .render => 0
  | .reset => 0
  | .feed => 0

/-- SEQ stands at `b` no earlier than at `a` (R24): first the part of the job, then Y, then the place in the band, then OFF. -/
def NotBefore (a b : Seq) : Prop :=
  a.phase.part < b.phase.part ∨
    (a.phase.part = b.phase.part ∧
      (a.y < b.y ∨
        (a.y = b.y ∧
          (a.phase.inBand < b.phase.inBand ∨ (a.phase.inBand = b.phase.inBand ∧ a.off ≤ b.off)))))

end Sys2Proof
end

