-- ==== Sys2Proof/WellFormed.lean ====
section
/-! DEFINITION. Which operands an operation may carry (spec rules R63, R141, R143, R160). -/

namespace Sys2Proof

/-- The operands of a header that a job can send: `1 <= rowBytes <= 8192`, `1 <= rows <= 65535` (R63). -/
def wfHeader (rowBytes rows : Half) : Bool :=
  decide (1 ≤ rowBytes.toNat) && decide (rowBytes.toNat ≤ 8192) && decide (1 ≤ rows.toNat)

/-- A band a job can send: not empty (R148) and inside a grid of at most 65535 rows (R12). -/
def wfBand (y rows : Nat) : Bool :=
  decide (1 ≤ rows) && decide (y + rows ≤ 65535)

/-- An outbound buffer is never empty (R160: `L >= 1`). -/
def wfBuffer (buf : List Byte) : Bool :=
  decide (1 ≤ buf.length)

/-- Well-formedness of an operation's operands. -/
def Instr.wf : Instr → Bool
  | .txReset => true
  | .txHdr rowBytes rows => wfHeader rowBytes rows
  | .txFeed => true
  | .txBody y rows => wfBand y rows
  | .qThresh => true
  | .qFs => true
  | .qAtk => true
  | .qOrd4 => true
  | .qOrd8 => true
  | .qReserved5 => true
  | .qReserved6 => true
  | .qReserved7 => true
  | .start => true
  | .luma => true
  | .tone => true
  | .pack => true
  | .chunk buf => wfBuffer buf
  | .sleep _ => true

end Sys2Proof
end

