-- ==== Sys2Proof/Certificates/Slice0/Obligations.lean ====
section
/-! DEFINITION. The statements for the provers, file by file of the spec. Each docstring names the rule it formalises. A step of the
machine takes the next turn off `turns` (log 1); a state built here as `{ s with turns := tn :: rest }` is one in which agent
`tn` moves next, and `{ s with turns := rest }` is what is left to move after it. The fields `turns` (log 1), `stage` (log 2),
`hostData` (log 12), the record of a failed write in `history` (log 13) and what `timer` holds (log 21) are the model's own. -/

open Sys2Proof Sys2Proof.Machine

/-! ### Reset -/

/-- R230 (the configuration registers) and R231 (STATUS, ERRINFO, JOB, SEQ, the timer): the values the spec gives after reset. -/
def Obligations.ResetValues : Prop :=
  State.reset.cfg.w = 384#16 ∧ State.reset.cfg.h = 0#16 ∧ State.reset.cfg.gamma = 0x0100#16 ∧
  State.reset.cfg.qmode = 1#3 ∧ State.reset.cfg.thresh = 128#8 ∧ State.reset.cfg.chunkSize = 160#16 ∧
  State.reset.cfg.bandRows = 0#16 ∧ State.reset.cfg.bandDelay = 0#16 ∧ State.reset.cfg.chunkDelay = 0#16 ∧
  State.reset.status.word = 0#8 ∧ State.reset.errinfo = 0#32 ∧ State.reset.job = State.reset.cfg ∧
  State.reset.seq = ⟨.idle, 0, 0, 0, .none, 0⟩ ∧ State.reset.timer = none

/-- The invariant of Safety.lean holds after reset. -/
def Obligations.ResetSatisfiesInvariant : Prop := Inv State.reset

/-- Every step keeps the invariant: the memories' canonical form, STATUS consistent with SEQ, JOB legal, at most one outstanding
write or sleep with its timer, the position inside the band partition, and SEQ's numbers in the ranges of R24. -/
def Obligations.StepKeepsInvariant : Prop :=
  ∀ s t : State, Inv s → step s = .next t → Inv t

/-- R231: a hardware reset puts every register and the position back, whatever ran, and reports nothing; an answer of LINK that comes
after it is ignored. The memories become unwritten again (R232); what was handed to the link stays in the history (log 13, 15). -/
def Obligations.HardwareResetDropsJob : Prop :=
  (∀ (s : State) (rest : List Turn),
    step { s with turns := .reset :: rest } =
      .next { State.reset with
        history := s.history, turns := rest, hostData := s.hostData, resets := s.resets + 1, draws := s.draws }) ∧
  ∀ (s : State) (a : LinkAnswer) (rest : List Turn),
    runSteps 2 { s with turns := .reset :: .link a :: rest } = runSteps 1 { s with turns := .reset :: rest }

/-! ### Steps and encodings -/

/-- A step runs the operation the position selects, by exec; an empty list of turns is SEQ's turn (log 1, 2, 3). -/
def Obligations.StepRunsSelectedOperation : Prop :=
  (∀ s : State, s.turns = [] → step s = step { s with turns := [.seq] }) ∧
  (∀ (s : State) (rest : List Turn), s.seq.phase = .render →
    (s.stage = .luma → step { s with turns := .seq :: rest } = exec .luma { s with turns := rest }) ∧
    (s.stage = .tone → step { s with turns := .seq :: rest } = exec .tone { s with turns := rest }) ∧
    (s.stage = .quant →
      step { s with turns := .seq :: rest } = exec (decodeQmode s.job.qmode) { s with turns := rest }) ∧
    (s.stage = .pack → step { s with turns := .seq :: rest } = exec .pack { s with turns := rest })) ∧
  (∀ (s : State) (rest : List Turn), s.seq.wait = .none → s.seq.off = 0 →
    (s.seq.phase = .reset → step { s with turns := .seq :: rest } = exec .txReset { s with turns := rest }) ∧
    (s.seq.phase = .hdr →
      step { s with turns := .seq :: rest } =
        exec (.txHdr (BitVec.ofNat 16 s.rowBytes) (BitVec.ofNat 16 s.seq.rows)) { s with turns := rest }) ∧
    (s.seq.phase = .body → 0 < s.rowBytes * s.seq.rows →
      step { s with turns := .seq :: rest } = exec (.txBody s.seq.y s.seq.rows) { s with turns := rest }) ∧
    (s.seq.phase = .feed → step { s with turns := .seq :: rest } = exec .txFeed { s with turns := rest })) ∧
  (∀ (s : State) (rest : List Turn), s.seq.wait = .none → 0 < s.seq.off → s.seq.off < s.cur.length →
    step { s with turns := .seq :: rest } = exec (.chunk s.cur) { s with turns := rest }) ∧
  (∀ (s : State) (rest : List Turn), s.seq.wait = .write →
    step { s with turns := .link .ok :: rest } = exec (.sleep .chunk) { s with turns := rest }.sliceSent) ∧
  (∀ (s : State) (rest : List Turn), s.seq.phase = .body → s.seq.wait = .none → s.seq.off = s.cur.length →
    0 < s.bandRows → step { s with turns := .seq :: rest } = exec (.sleep .band) { s with turns := rest }.toGap) ∧
  (∀ (s : State) (rest : List Turn),
    step { s with turns := .host (.writeCtrl 1#1) :: rest } = exec .start { s with turns := rest })

/-- Where a table word is placed, the very next step runs the instruction it decodes to, by exec, from the placed state (log 18). -/
def Obligations.PlacedWordRuns : Prop :=
  ∀ (s : State) (nbits w : Nat) (i : Instr), decodeTableWord nbits w = some i → i.wf = true →
    step (s.withFetchWord nbits w) = exec i { s.withFetchWord nbits w with turns := s.turns }

/-- Decoding what the encoder writes gives the operation back, with every operand at every value, and leaves the bytes after it
(R60 to R63, R66, R67, R20). -/
def Obligations.DecodeOfEncode : Prop :=
  ∀ (i : Instr) (bs rest : List Byte), encode i = some bs → decode i.format (bs ++ rest) = .ok (i, rest)

/-- Each encoding has one meaning: what the decoder accepts is what the encoder writes (R61, R62, R66, R20). -/
def Obligations.EncodeOfDecode : Prop :=
  (∀ (bs rest : List Byte) (i : Instr), decodeWire bs = .ok (i, rest) → ∃ e, encode i = some e ∧ bs = e ++ rest) ∧
  (∀ (bs rest : List Byte) (i : Instr), decodeQmodeByte bs = .ok (i, rest) → ∃ e, encode i = some e ∧ bs = e ++ rest) ∧
  (∀ (bs rest : List Byte) (i : Instr), decodeCtrlByte bs = .ok (i, rest) → i = .start ∧ bs = 0x01#8 :: rest) ∧
  (∀ c : BitVec 3, qmodeCode (decodeQmode c) = some c)

/-- Words written out from the spec's encodings decode to the operations they stand for (R61, R62, R66, R20). -/
def Obligations.SpecWordsDecode : Prop :=
  decode .wire2 [0x1B#8, 0x40#8] = .ok (.txReset, []) ∧
  decode .wire2 [0x0A#8, 0x0A#8] = .ok (.txFeed, []) ∧
  decode .wire8 [0x1D#8, 0x76#8, 0x30#8, 0x00#8, 0x30#8, 0x00#8, 0xE8#8, 0x03#8] = .ok (.txHdr 48#16 1000#16, []) ∧
  decode .qmode3 [0b00000011#8] = .ok (.qOrd4, []) ∧
  decode .ctrl1 [0b00000001#8] = .ok (.start, [])

/-- R63: the header's two fields are the low byte, then the high byte, of a 16-bit number; a receiver recovers it; a job's
`rowBytes` and `rows` always fit. -/
def Obligations.HeaderFieldsAreLittleEndian : Prop :=
  (∀ v : Nat, v ≤ 65535 →
    (lo8 v).toNat + 256 * (hi8 v).toNat = v ∧ (joinLoHi (lo8 v) (hi8 v)).toNat = v) ∧
  (∀ rowBytes rows : Nat, headerBytes rowBytes rows =
    [0x1D#8, 0x76#8, 0x30#8, 0x00#8, lo8 rowBytes, hi8 rowBytes, lo8 rows, hi8 rows]) ∧
  (∀ w : Nat, 1 ≤ w → w ≤ 65535 → 1 ≤ rowBytesOf w ∧ rowBytesOf w ≤ 8192 ∧ w ≤ 8 * rowBytesOf w ∧ 8 * rowBytesOf w < w + 8) ∧
  (∀ (s : State) (band : Nat × Nat), 1 ≤ s.height → band ∈ s.bands → 1 ≤ band.2 ∧ band.2 ≤ 65535)

/-! ### START and the errors -/

/-- R208: a START during a job sets REJ and changes nothing else. -/
def Obligations.BusyStartIsRejected : Prop :=
  ∀ s : State, s.status.busy = true →
    exec .start s = .next { s with status := { s.status with rej := true } }

/-- R180, R181, R183: an accepted START whose checks pass clears the flags, latches CFG into JOB with a reserved mode code replaced
by 1, sets BUSY and enters RENDER; nothing else changes. (With the adopted MAXPIX of 65535 x 65535 check 3 always passes.)
The field `stage` is the model's (log 2). -/
def Obligations.AcceptedStartLatchesAndRuns : Prop :=
  ∀ s : State, s.status.busy = false → 1 ≤ s.cfg.w.toNat → 1 ≤ s.cfg.h.toNat → 1 ≤ s.cfg.chunkSize.toNat →
    exec .start s = .next { s with
      status :=
        { busy := true, done := false, err := false, errcode := 0#2, rej := false,
          fallback := decide (5 ≤ s.cfg.qmode.toNat) }
      errinfo := 0#32
      job := { s.cfg with qmode := if 5 ≤ s.cfg.qmode.toNat then 1#3 else s.cfg.qmode }
      stage := .luma
      seq := { s.seq with phase := .render } }

/-- R182, R206: the four checks in order, for any capacity MAXPIX; the first that fails gives its number, the START ends in
InputError, and nothing of the job has happened: only STATUS, ERRINFO and JOB change, BUSY and DONE are 0. No other value is out of
range: when none of the four fails the job is accepted. START is this with the MAXPIX of the model (log 8). -/
def Obligations.FailedCheckIsInputError : Prop :=
  (∀ s : State, exec .start s = .next (s.startJob Params.adopted.maxPix)) ∧
  (∀ (maxPix : Nat) (s : State), s.status.busy = false → 1 ≤ s.cfg.w.toNat → 1 ≤ s.cfg.h.toNat →
    s.cfg.w.toNat * s.cfg.h.toNat ≤ maxPix → 1 ≤ s.cfg.chunkSize.toNat →
    (s.startJob maxPix).status.busy = true ∧ (s.startJob maxPix).status.err = false) ∧
  ∀ (maxPix : Nat) (s : State) (n : BitVec 32), s.status.busy = false →
    ((s.cfg.w.toNat = 0 ∧ n = 1#32) ∨
      (1 ≤ s.cfg.w.toNat ∧ s.cfg.h.toNat = 0 ∧ n = 2#32) ∨
      (1 ≤ s.cfg.w.toNat ∧ 1 ≤ s.cfg.h.toNat ∧ maxPix < s.cfg.w.toNat * s.cfg.h.toNat ∧ n = 3#32) ∨
      (1 ≤ s.cfg.w.toNat ∧ 1 ≤ s.cfg.h.toNat ∧ s.cfg.w.toNat * s.cfg.h.toNat ≤ maxPix ∧ s.cfg.chunkSize.toNat = 0 ∧
        n = 4#32)) →
    s.startJob maxPix = { s with
      status :=
        { busy := false, done := false, err := true, errcode := 1#2, rej := false,
          fallback := decide (5 ≤ s.cfg.qmode.toNat) }
      errinfo := n
      job := { s.cfg with qmode := if 5 ≤ s.cfg.qmode.toNat then 1#3 else s.cfg.qmode } }

/-- R21: the layout of STATUS; bit 7 reads 0. -/
def Obligations.StatusWordLayout : Prop :=
  ∀ f : Status,
    f.word.toNat = f.busy.toNat + 2 * f.done.toNat + 4 * f.err.toNat + 8 * f.errcode.toNat + 32 * f.rej.toNat
      + 64 * f.fallback.toNat

/-! ### The host -/

/-- R28, R54: a host access (anything but a START) touches CFG, PIX and what the host reads back, and nothing of the job; during a
job not PIX either. A CTRL write of 0 (R20) and a write to the read-only STATUS and ERRINFO (R21, R22, log 14) change nothing at
all; a read to which the spec gives no value (PIX and PK while BUSY, LUM always: R28, R29, log 5) completes and changes only what
the host reads back (log 12) and the counter of such reads (log 5). -/
def Obligations.HostAccessLeavesJobAlone : Prop :=
  (∀ (s t : State) (a : HostAction) (rest : List Turn), a ≠ .writeCtrl 1#1 →
    step { s with turns := .host a :: rest } = .next t →
    t = { s with turns := rest, cfg := t.cfg, pix := t.pix, hostData := t.hostData, draws := t.draws } ∧
      (s.status.busy = true → t.pix = s.pix)) ∧
  (∀ (s : State) (rest : List Turn) (v : BitVec 8) (w : BitVec 32),
    step { s with turns := .host (.writeCtrl 0#1) :: rest } = .next { s with turns := rest } ∧
    step { s with turns := .host (.writeStatus v) :: rest } = .next { s with turns := rest } ∧
    step { s with turns := .host (.writeErrinfo w) :: rest } = .next { s with turns := rest }) ∧
  (∀ (s : State) (rest : List Turn) (i : Nat), s.status.busy = true →
    (i < Params.adopted.maxPix →
      ∃ px, step { s with turns := .host (.readPix i) :: rest } =
        .next { s with turns := rest, hostData := .pixel px, draws := s.draws + 1 }) ∧
    (i < 8192 * 65535 →
      ∃ b, step { s with turns := .host (.readPk i) :: rest } =
        .next { s with turns := rest, hostData := .byte b, draws := s.draws + 1 })) ∧
  (∀ (s : State) (rest : List Turn) (i : Nat), i < Params.adopted.maxPix →
    ∃ v, step { s with turns := .host (.readLum i) :: rest } =
      .next { s with turns := rest, hostData := .num v, draws := s.draws + 1 })

/-- R10, R20, R28, R29: a CFG write is stored at once; a PIX write is stored while not BUSY and ignored while BUSY; reads return the
contents of PIX and PK while not BUSY, of CFG, STATUS and ERRINFO always, and 0 for CTRL. That register read data is a word of 32 bits,
zero-extended, and where it is kept, is the model's choice (log 22, 12). -/
def Obligations.HostPortReadsAndWrites : Prop :=
  (∀ (s : State) (rest : List Turn) (v : Half),
    step { s with turns := .host (.setW v) :: rest } = .next { s with turns := rest, cfg := { s.cfg with w := v } } ∧
    step { s with turns := .host (.setH v) :: rest } = .next { s with turns := rest, cfg := { s.cfg with h := v } } ∧
    step { s with turns := .host (.setGamma v) :: rest } = .next { s with turns := rest, cfg := { s.cfg with gamma := v } } ∧
    step { s with turns := .host (.setChunkSize v) :: rest } =
      .next { s with turns := rest, cfg := { s.cfg with chunkSize := v } } ∧
    step { s with turns := .host (.setBandRows v) :: rest } =
      .next { s with turns := rest, cfg := { s.cfg with bandRows := v } } ∧
    step { s with turns := .host (.setBandDelay v) :: rest } =
      .next { s with turns := rest, cfg := { s.cfg with bandDelay := v } } ∧
    step { s with turns := .host (.setChunkDelay v) :: rest } =
      .next { s with turns := rest, cfg := { s.cfg with chunkDelay := v } }) ∧
  (∀ (s : State) (rest : List Turn) (q : BitVec 3) (v : BitVec 8),
    step { s with turns := .host (.setQmode q) :: rest } = .next { s with turns := rest, cfg := { s.cfg with qmode := q } } ∧
    step { s with turns := .host (.setThresh v) :: rest } =
      .next { s with turns := rest, cfg := { s.cfg with thresh := v } }) ∧
  (∀ (s : State) (rest : List Turn) (i : Nat) (px : Pixel), s.status.busy = true →
    step { s with turns := .host (.writePix i px) :: rest } = .next { s with turns := rest }) ∧
  (∀ (s : State) (rest : List Turn) (i : Nat) (px : Pixel), s.status.busy = false → i < Params.adopted.maxPix →
    ∃ t, step { s with turns := .host (.writePix i px) :: rest } = .next t ∧ t = { s with turns := rest, pix := t.pix } ∧
      t.readPix i = px ∧ ∀ j, j ≠ i → t.readPix j = s.readPix j) ∧
  (∀ (s : State) (rest : List Turn) (i : Nat), s.status.busy = false →
    (i < Params.adopted.maxPix →
      step { s with turns := .host (.readPix i) :: rest } =
        .next { s with turns := rest, hostData := .pixel (s.readPix i) }) ∧
    (i < 8192 * 65535 →
      step { s with turns := .host (.readPk i) :: rest } =
        .next { s with turns := rest, hostData := .byte (s.readPk i) })) ∧
  (∀ (s : State) (rest : List Turn),
    step { s with turns := .host (.readReg .status) :: rest } =
      .next { s with turns := rest, hostData := .reg (s.status.word.setWidth 32) } ∧
    step { s with turns := .host (.readReg .errinfo) :: rest } =
      .next { s with turns := rest, hostData := .reg s.errinfo } ∧
    step { s with turns := .host (.readReg .ctrl) :: rest } = .next { s with turns := rest, hostData := .reg 0#32 } ∧
    step { s with turns := .host (.readReg .w) :: rest } =
      .next { s with turns := rest, hostData := .reg (s.cfg.w.setWidth 32) } ∧
    step { s with turns := .host (.readReg .h) :: rest } =
      .next { s with turns := rest, hostData := .reg (s.cfg.h.setWidth 32) } ∧
    step { s with turns := .host (.readReg .gamma) :: rest } =
      .next { s with turns := rest, hostData := .reg (s.cfg.gamma.setWidth 32) } ∧
    step { s with turns := .host (.readReg .qmode) :: rest } =
      .next { s with turns := rest, hostData := .reg (s.cfg.qmode.setWidth 32) } ∧
    step { s with turns := .host (.readReg .thresh) :: rest } =
      .next { s with turns := rest, hostData := .reg (s.cfg.thresh.setWidth 32) } ∧
    step { s with turns := .host (.readReg .chunkSize) :: rest } =
      .next { s with turns := rest, hostData := .reg (s.cfg.chunkSize.setWidth 32) } ∧
    step { s with turns := .host (.readReg .bandRows) :: rest } =
      .next { s with turns := rest, hostData := .reg (s.cfg.bandRows.setWidth 32) } ∧
    step { s with turns := .host (.readReg .bandDelay) :: rest } =
      .next { s with turns := rest, hostData := .reg (s.cfg.bandDelay.setWidth 32) } ∧
    step { s with turns := .host (.readReg .chunkDelay) :: rest } =
      .next { s with turns := rest, hostData := .reg (s.cfg.chunkDelay.setWidth 32) })

/-- The machine never refuses, and faults only when the host's access names an element that does not exist (the model's choice,
log 11). -/
def Obligations.OnlyMissingElementsFault : Prop :=
  (∀ (s : State) (r : Refusal), step s ≠ .refused r) ∧
  (∀ (s : State) (r : Fault), step s = .fault r →
    ∃ i, r = .noSuchElement i ∧
      ((Params.adopted.maxPix ≤ i ∧
          ((∃ px, s.turns.head? = some (.host (.writePix i px))) ∨ s.turns.head? = some (.host (.readPix i)) ∨
            s.turns.head? = some (.host (.readLum i)))) ∨
        (8192 * 65535 ≤ i ∧ s.turns.head? = some (.host (.readPk i)))))

/-! ### LUMA and TONE -/

/-- R80, R81, R82: LUMA completes in every state and writes the truncated weighted sum of every pixel of the grid; alpha takes no
part, no other element and nothing else changes, and TONE is next (log 2). -/
def Obligations.LumaComputesLuminance : Prop :=
  ∀ s : State, ∃ t, exec .luma s = .next t ∧ t = { s with lum := t.lum, stage := .tone } ∧
    (∀ x y, x < s.width → y < s.height →
      t.readLum (pixelAddr s.width x y) =
        (((299 * (s.readPix (pixelAddr s.width x y)).r.toNat + 587 * (s.readPix (pixelAddr s.width x y)).g.toNat
          + 114 * (s.readPix (pixelAddr s.width x y)).b.toNat) / 1000 : Nat) : LumNum)) ∧
    ∀ a, s.width * s.height ≤ a → t.readLum a = s.readLum a

/-- R91: with GAMMA negative (bit 15 set), 0 or 1.0, TONE completes and every LUM element keeps its value.
That RENDER is four steps, with `stage` the next one, is the model's choice (log 2). -/
def Obligations.ToneBypassKeepsLum : Prop :=
  ∀ s : State, s.job.gamma.getLsbD 15 = true ∨ s.job.gamma = 0#16 ∨ s.job.gamma = 0x0100#16 →
    exec .tone s = .next { s with stage := .quant }

/-- R92: for every other GAMMA, with `p = sext(GAMMA)` and `q = 256`, TONE completes and replaces each element `v` in 0 to 255 by the
largest `n` in 0 to 255 with `n^p * 255^q <= 255^p * v^q`; no element outside the grid and nothing else changes.
That RENDER is four steps, with `stage` the next one, is the model's choice (log 2). -/
def Obligations.ToneCurveIsLargestFit : Prop :=
  ∀ s : State, s.job.gamma.getLsbD 15 = false → s.job.gamma ≠ 0#16 → s.job.gamma ≠ 0x0100#16 →
    ∃ t, exec .tone s = .next t ∧ t = { s with lum := t.lum, stage := .quant } ∧
      (∀ x y v : Nat, x < s.width → y < s.height → v ≤ 255 → s.readLum (pixelAddr s.width x y) = (v : LumNum) →
        ∃ n : Nat, n ≤ 255 ∧ t.readLum (pixelAddr s.width x y) = (n : LumNum) ∧
          n ^ s.job.gamma.toNat * 255 ^ 256 ≤ 255 ^ s.job.gamma.toNat * v ^ 256 ∧
          ∀ k : Nat, k ≤ 255 → k ^ s.job.gamma.toNat * 255 ^ 256 ≤ 255 ^ s.job.gamma.toNat * v ^ 256 → k ≤ n) ∧
      ∀ a, s.width * s.height ≤ a → t.readLum a = s.readLum a

/-- R93: for every gamma `p / q` above 0 the exact curve fixes 0 and 255, gives integers 0 to 255, is non-decreasing, and lies above
the diagonal for gamma above 1, below it for gamma below 1. -/
def Obligations.ToneBoundariesAndShape : Prop :=
  ∀ p q : Nat, 0 < p → 0 < q →
    toneExact p q 0 = 0 ∧ toneExact p q 255 = 255 ∧
    (∀ v : Nat, v ≤ 255 → ∃ n : Nat, n ≤ 255 ∧ toneExact p q (v : LumNum) = (n : LumNum)) ∧
    (∀ v v' : Nat, v ≤ v' → v' ≤ 255 → toneExact p q (v : LumNum) ≤ toneExact p q (v' : LumNum)) ∧
    (q < p → ∀ v : Nat, v ≤ 255 → (v : LumNum) ≤ toneExact p q (v : LumNum)) ∧
    (p < q → ∀ v : Nat, v ≤ 255 → toneExact p q (v : LumNum) ≤ (v : LumNum))

/-! ### The quantizer -/

/-- R101: Q.THRESH completes in every state; each pixel becomes 0 if below THRESH, else 255; nothing outside the grid changes.
That RENDER is four steps, with `stage` the next one, is the model's choice (log 2). -/
def Obligations.ThresholdQuantizer : Prop :=
  ∀ s : State, ∃ t, exec .qThresh s = .next t ∧ t = { s with lum := t.lum, stage := .pack } ∧
    (∀ x y, x < s.width → y < s.height →
      t.readLum (pixelAddr s.width x y) =
        if s.readLum (pixelAddr s.width x y) < (s.job.thresh.toNat : LumNum) then 0 else 255) ∧
    ∀ a, s.width * s.height ≤ a → t.readLum a = s.readLum a

/-- R115, R118, R119: Q.ORD4 and Q.ORD8 complete in every state; each pixel is compared with the exact threshold
`(M[y mod n][x mod n] + 1/2) * 255 / n^2` of the adopted matrix (log 9); nothing outside the grid changes.
That RENDER is four steps, with `stage` the next one, is the model's choice (log 2). -/
def Obligations.OrderedQuantizers : Prop :=
  ∀ s : State,
    (∃ t, exec .qOrd4 s = .next t ∧ t = { s with lum := t.lum, stage := .pack } ∧
      (∀ x y, x < s.width → y < s.height →
        t.readLum (pixelAddr s.width x y) =
          if s.readLum (pixelAddr s.width x y)
              < ((Params.adopted.bayer4 (y % 4) (x % 4) : LumNum) + 1 / 2) * (255 / 4 ^ 2) then 0 else 255) ∧
      ∀ a, s.width * s.height ≤ a → t.readLum a = s.readLum a) ∧
    (∃ t, exec .qOrd8 s = .next t ∧ t = { s with lum := t.lum, stage := .pack } ∧
      (∀ x y, x < s.width → y < s.height →
        t.readLum (pixelAddr s.width x y) =
          if s.readLum (pixelAddr s.width x y)
              < ((Params.adopted.bayer8 (y % 8) (x % 8) : LumNum) + 1 / 2) * (255 / 8 ^ 2) then 0 else 255) ∧
      ∀ a, s.width * s.height ≤ a → t.readLum a = s.readLum a)

/-- R103, R110, R48: Q.FS and Q.ATK complete in every state with the visits of their scan order (R102) from the LUM they find; no
element outside the grid and nothing else changes.
That RENDER is four steps, with `stage` the next one, is the model's choice (log 2). -/
def Obligations.DiffusionQuantizersComplete : Prop :=
  ∀ s : State,
    (∃ t, exec .qFs s = .next t ∧ t = { s with lum := t.lum, stage := .pack } ∧
      t.lum = fsVisits Params.adopted s.lumFree s.width s.height (serpentine s.width s.height) s.lum ∧
      ∀ a, s.width * s.height ≤ a → t.readLum a = s.readLum a) ∧
    (∃ t, exec .qAtk s = .next t ∧ t = { s with lum := t.lum, stage := .pack } ∧
      t.lum = atkVisits Params.adopted s.lumFree s.width s.height (raster s.width s.height) s.lum ∧
      ∀ a, s.width * s.height ≤ a → t.readLum a = s.readLum a)

/-- R67 says of a job that a reserved code never traps, runs as if the code were 1, and sets FALLBACK. START does this (R183), so no job
reaches QUANT with such a code; that QUANT does the same when JOB holds one is the model's choice (log 19).
That RENDER is four steps, with `stage` the next one, is the model's choice (log 2). -/
def Obligations.ReservedModesRunDefault : Prop :=
  ∀ s : State, ∃ t,
    exec .qReserved5 s = .next t ∧ exec .qReserved6 s = .next t ∧ exec .qReserved7 s = .next t ∧
    exec .qFs { s with
      job := { s.job with qmode := 1#3 }, status := { s.status with fallback := true } } = .next t ∧
    t = { s with
      lum := t.lum, stage := .pack, job := { s.job with qmode := 1#3 }
      status := { s.status with fallback := true } } ∧
    ∀ a, s.width * s.height ≤ a → t.readLum a = s.readLum a

/-- R120: whatever the parameters (every rounding RND, every matrix) and whatever LUM holds, each of the five quantizers leaves every
pixel of the grid exactly 0 or 255. -/
def Obligations.QuantizersLeaveBlackAndWhite : Prop :=
  ∀ (p : Params) (s t : State) (x y : Nat), x < s.width → y < s.height →
    t ∈ [threshStage s, fsStage p s, atkStage p s, ord4Stage p s, ord8Stage p s] →
    t.readLum (pixelAddr s.width x y) = 0 ∨ t.readLum (pixelAddr s.width x y) = 255

/-- R103, R104, R105: one visit of Q.FS in exact arithmetic. The visited pixel is decided at 128; each other pixel of the grid gains its
weight of the error, in direction `d`, and a share whose target is outside the grid is lost, with no wrap-around (R48). -/
def Obligations.FloydSteinbergVisit : Prop :=
  ∀ (p : Params) (free : Nat → LumNum) (w h x y : Nat) (d : Int) (m : Mem LumNum), (∀ v, p.rnd v = v) →
    d = 1 ∨ d = -1 → x < w → y < h →
    let oldp := memRead free m (pixelAddr w x y)
    let newp : LumNum := if oldp < 128 then 0 else 255
    let m' := visit p free (fsShares p d) w h x y m
    memRead free m' (pixelAddr w x y) = newp ∧
    (∀ x' y', x' < w → y' < h → (x', y') ≠ (x, y) →
      memRead free m' (pixelAddr w x' y') =
        memRead free m (pixelAddr w x' y') + fsWeight d ((x' : Int) - x) ((y' : Int) - y) * (oldp - newp)) ∧
    ∀ a, w * h ≤ a → memRead free m' a = memRead free m a

/-- R110, R111, R112: one visit of Q.ATK in exact arithmetic: the pixel is decided at 128, each of the six targets inside the grid gains
one eighth of the error, every other element is unchanged. -/
def Obligations.AtkinsonVisit : Prop :=
  ∀ (p : Params) (free : Nat → LumNum) (w h x y : Nat) (m : Mem LumNum), (∀ v, p.rnd v = v) → x < w → y < h →
    let oldp := memRead free m (pixelAddr w x y)
    let newp : LumNum := if oldp < 128 then 0 else 255
    let m' := visit p free (atkShares p) w h x y m
    memRead free m' (pixelAddr w x y) = newp ∧
    (∀ x' y', x' < w → y' < h → (x', y') ≠ (x, y) →
      memRead free m' (pixelAddr w x' y') =
        memRead free m (pixelAddr w x' y') + atkWeight ((x' : Int) - x) ((y' : Int) - y) * (oldp - newp)) ∧
    ∀ a, w * h ≤ a → memRead free m' a = memRead free m a

/-- R102, R110: Q.FS visits the pixels in the serpentine order, Q.ATK in raster order, each exactly once. -/
def Obligations.DiffusionScanOrder : Prop :=
  (∀ (p : Params) (free : Nat → LumNum) (w h : Nat) (m : Mem LumNum),
    fsGrid p free w h m = fsVisits p free w h (serpentine w h) m ∧
    atkGrid p free w h m = atkVisits p free w h (raster w h) m) ∧
  (∀ w h : Nat, ((serpentine w h).map fun v => v.2).Nodup) ∧
  (∀ w h x y : Nat, (x, y) ∈ (serpentine w h).map (fun v => v.2) ↔ x < w ∧ y < h) ∧
  (∀ w h : Nat, (raster w h).Nodup) ∧
  (∀ w h x y : Nat, (x, y) ∈ raster w h ↔ x < w ∧ y < h)

/-- R122, first row: in exact arithmetic, for inputs 0 to 255, the value Q.FS finds at each visit lies in -128 to 383 and the error in
-128 to 128. -/
def Obligations.FloydSteinbergBounds : Prop :=
  ∀ (p : Params) (free : Nat → LumNum) (w h k x y : Nat) (d : Int) (m : Mem LumNum), (∀ v, p.rnd v = v) →
    (∀ x y, x < w → y < h → 0 ≤ memRead free m (pixelAddr w x y) ∧ memRead free m (pixelAddr w x y) ≤ 255) →
    (serpentine w h)[k]? = some (d, x, y) →
    let oldp := memRead free (fsVisits p free w h ((serpentine w h).take k) m) (pixelAddr w x y)
    oldp ≤ 383 ∧ -128 ≤ oldp ∧ -128 ≤ oldp - decide128 oldp ∧ oldp - decide128 oldp ≤ 128

/-- R122, second row: in exact arithmetic, for inputs 0 to 255, the value Q.ATK finds at each visit lies in -96 to 351 and the
difference in -127 to below 128. -/
def Obligations.AtkinsonBounds : Prop :=
  ∀ (p : Params) (free : Nat → LumNum) (w h k x y : Nat) (m : Mem LumNum), (∀ v, p.rnd v = v) →
    (∀ x y, x < w → y < h → 0 ≤ memRead free m (pixelAddr w x y) ∧ memRead free m (pixelAddr w x y) ≤ 255) →
    (raster w h)[k]? = some (x, y) →
    let oldp := memRead free (atkVisits p free w h ((raster w h).take k) m) (pixelAddr w x y)
    oldp ≤ 351 ∧ -96 ≤ oldp ∧ -127 ≤ oldp - decide128 oldp ∧ oldp - decide128 oldp < 128

/-- R124, 95 section 11: the output of an ordered mode at a pixel depends on the pixel's value and its coordinates modulo the matrix size
alone: two states that share nothing else agree. -/
def Obligations.OrderedOutputIsTilePeriodic : Prop :=
  ∀ (s s' t t' : State) (x y x' y' : Nat), x < s.width → y < s.height → x' < s'.width → y' < s'.height →
    s.readLum (pixelAddr s.width x y) = s'.readLum (pixelAddr s'.width x' y') →
    (exec .qOrd4 s = .next t → exec .qOrd4 s' = .next t' → x % 4 = x' % 4 → y % 4 = y' % 4 →
      t.readLum (pixelAddr s.width x y) = t'.readLum (pixelAddr s'.width x' y')) ∧
    (exec .qOrd8 s = .next t → exec .qOrd8 s' = .next t' → x % 8 = x' % 8 → y % 8 = y' % 8 →
      t.readLum (pixelAddr s.width x y) = t'.readLum (pixelAddr s'.width x' y'))

/-! ### PACK and the whole render -/

/-- R130, R132, R46: PACK completes in every state; pixel `x` of row `y` is bit `7 - x mod 8` of byte `x div 8` of the row, 1 iff the pixel
is 0, and padding bits are 0; no byte beyond the bitmap changes; the transmit part begins (R185).
That RENDER is four steps, with `stage` the next one, is the model's choice (log 2). -/
def Obligations.PackSetsBits : Prop :=
  ∀ s : State, ∃ t, exec .pack s = .next t ∧
    t = { s with pk := t.pk, stage := .luma, seq := ⟨.reset, 0, 0, 0, .none, 0⟩ } ∧
    (∀ x y, x < 8 * s.rowBytes → y < s.height →
      (t.readPk (packAddr s.width y (x / 8))).getLsbD (7 - x % 8) =
        decide (x < s.width ∧ s.readLum (pixelAddr s.width x y) = 0)) ∧
    ∀ a, s.rowBytes * s.height ≤ a → t.readPk a = s.readPk a

/-- R133: packing a picture of 0 and 255 can be undone for every pixel inside it; padding bits are 0. -/
def Obligations.PackRoundTrips : Prop :=
  ∀ s t : State, exec .pack s = .next t →
    (∀ x y, x < s.width → y < s.height →
      s.readLum (pixelAddr s.width x y) = 0 ∨ s.readLum (pixelAddr s.width x y) = 255) →
    (∀ x y, x < s.width → y < s.height → unpackPixel t.readPk s.width x y = s.readLum (pixelAddr s.width x y)) ∧
    ∀ x y, s.width ≤ x → x < 8 * s.rowBytes → y < s.height →
      (t.readPk (y * s.rowBytes + x / 8)).getLsbD (7 - x % 8) = false

/-- R185, R186: from the start of RENDER four steps of SEQ leave in PK exactly `pack(quant(tone(luma(PIX))))` of the latched job, whatever
LUM and PK held, and the transmit part begins; nothing else but LUM and PK changes.
That RENDER is four steps, with `stage` the next one, is the model's choice (log 2). -/
def Obligations.RenderIsTheComposite : Prop :=
  ∀ (s : State) (rest : List Turn), s.seq.phase = .render → s.stage = .luma → s.job.qmode.toNat < 5 →
    ∃ t, runSteps 4 { s with turns := .seq :: .seq :: .seq :: .seq :: rest } = .next t ∧
      t = { s with
        turns := rest, lum := t.lum, pk := t.pk, stage := .luma, seq := ⟨.reset, 0, 0, 0, .none, 0⟩ } ∧
      (∀ i, i < s.rowBytes * s.height →
        t.readPk i = renderByte Params.adopted s.lumFree s.readPix s.job i) ∧
      ∀ i, s.rowBytes * s.height ≤ i → t.readPk i = s.readPk i

/-- R186, R26: the rendered picture depends on the pixels of the grid and on W, H, GAMMA, QMODE and THRESH of the job alone: not on the
pacing, the chunk size, the banding, earlier jobs, or what any memory held. -/
def Obligations.PictureDependsOnlyOnJobAndPixels : Prop :=
  ∀ (s s' t t' : State) (rest rest' : List Turn),
    s.seq.phase = .render → s.stage = .luma → s'.seq.phase = .render → s'.stage = .luma → s.job.qmode.toNat < 5 →
    s'.job.w = s.job.w → s'.job.h = s.job.h → s'.job.gamma = s.job.gamma → s'.job.qmode = s.job.qmode →
    s'.job.thresh = s.job.thresh → (∀ a, a < s.width * s.height → s'.readPix a = s.readPix a) →
    runSteps 4 { s with turns := .seq :: .seq :: .seq :: .seq :: rest } = .next t →
    runSteps 4 { s' with turns := .seq :: .seq :: .seq :: .seq :: rest' } = .next t' →
    ∀ i, i < s.rowBytes * s.height → t'.readPk i = t.readPk i

/-! ### The framer and the chunked transport -/

/-- R140, R142, R145, R166: with nothing outstanding TX.RESET, TX.HDR and TX.FEED complete: the first slice (at most CHUNKSIZE bytes) of
their command is handed over as write NWR and SEQ waits for it; nothing else changes.
That one step carries the operation to its first wait is the model's reading (log 3). -/
def Obligations.TransmitCommandsSendFirstSlice : Prop :=
  ∀ s : State, s.seq.wait = .none →
    exec .txReset s = .next { s with
      history := s.history ++ [.write s.seq.nwr ([0x1B#8, 0x40#8].take s.chunkSize)]
      seq := { s.seq with phase := .reset, off := 0, wait := .write } } ∧
    exec .txFeed s = .next { s with
      history := s.history ++ [.write s.seq.nwr ([0x0A#8, 0x0A#8].take s.chunkSize)]
      seq := { s.seq with phase := .feed, off := 0, wait := .write } } ∧
    ∀ rowBytes rows : Half,
      exec (.txHdr rowBytes rows) s = .next { s with
        history := s.history ++
          [.write s.seq.nwr
            ([0x1D#8, 0x76#8, 0x30#8, 0x00#8, rowBytes.setWidth 8, (rowBytes >>> 8).setWidth 8, rows.setWidth 8,
              (rows >>> 8).setWidth 8].take s.chunkSize)]
        seq := { s.seq with phase := .hdr, off := 0, wait := .write } }

/-- R143, R166: with nothing outstanding TX.BODY of a band that is not empty completes: the first slice of
`PK[y*rowBytes : (y+rows)*rowBytes]` is handed over as write NWR; a band of no bytes sends nothing.
That one step carries the operation to its first wait is the model's reading (log 3). -/
def Obligations.TransmitBodySendsFirstSlice : Prop :=
  ∀ (s : State) (y rows : Nat), s.seq.wait = .none →
    (0 < s.rowBytes * rows →
      exec (.txBody y rows) s = .next { s with
        history := s.history ++
          [.write s.seq.nwr
            (((List.range (s.rowBytes * rows)).map fun k => s.readPk (y * s.rowBytes + k)).take s.chunkSize)]
        seq := { s.seq with phase := .body, off := 0, wait := .write } }) ∧
    (s.rowBytes * rows = 0 →
      exec (.txBody y rows) s = .next { s with seq := { s.seq with phase := .body, off := 0 } })

/-- R160, R166: with nothing outstanding CHUNK completes: while bytes are left it hands over the next slice, at OFF, of at most CHUNKSIZE
bytes; when none is left the loop has ended and nothing changes.
That one step carries the operation to its first wait is the model's reading (log 3). -/
def Obligations.ChunkSendsNextSlice : Prop :=
  ∀ (s : State) (buf : List Byte), s.seq.wait = .none →
    (s.seq.off < buf.length →
      exec (.chunk buf) s = .next { s with
        history := s.history ++ [.write s.seq.nwr ((buf.drop s.seq.off).take s.chunkSize)]
        seq := { s.seq with wait := .write } }) ∧
    (buf.length ≤ s.seq.off → exec (.chunk buf) s = .next s)

/-- R163, R147: with nothing outstanding SLEEP completes: the chunk pause when CHUNKDELAY is above 0, the band pause when BANDROWS and
BANDDELAY are; otherwise there is no sleep event and nothing changes.
That one step carries the operation to its first wait is the model's reading (log 3). -/
def Obligations.SleepStartsPause : Prop :=
  ∀ s : State, s.seq.wait = .none →
    (0 < s.job.chunkDelay.toNat →
      exec (.sleep .chunk) s = .next { s with
        history := s.history ++ [.sleep s.job.chunkDelay], timer := some s.job.chunkDelay
        seq := { s.seq with wait := .csleep } }) ∧
    (s.job.chunkDelay.toNat = 0 → exec (.sleep .chunk) s = .next s) ∧
    (0 < s.job.bandRows.toNat → 0 < s.job.bandDelay.toNat →
      exec (.sleep .band) s = .next { s with
        history := s.history ++ [.sleep s.job.bandDelay], timer := some s.job.bandDelay
        seq := { s.seq with wait := .bsleep } }) ∧
    (s.job.bandRows.toNat = 0 ∨ s.job.bandDelay.toNat = 0 → exec (.sleep .band) s = .next s)

/-- R162, R175: while a write or a pause is pending no transmit operation does anything: the block waits.
That one step carries the operation to its first wait is the model's reading (log 3). -/
def Obligations.SendingWaitsWhilePending : Prop :=
  ∀ (s : State) (i : Instr), s.seq.wait ≠ .none →
    (i = .txReset ∨ (∃ a b, i = .txHdr a b) ∨ (∃ y r, i = .txBody y r) ∨ i = .txFeed ∨ (∃ buf, i = .chunk buf) ∨
      ∃ p, i = .sleep p) →
    exec i s = .next s

/-- R161: the slices put together are the buffer; there are `ceil(L / cs)` of them; slice `k` starts at byte `k * cs`; each but the
last has `cs` bytes, the last between 1 and `cs`. -/
def Obligations.SlicesPartitionBuffer : Prop :=
  ∀ (cs : Nat) (buf : List Byte), 1 ≤ cs →
    (slicesOf cs buf).flatten = buf ∧
    (slicesOf cs buf).length = (buf.length + cs - 1) / cs ∧
    (∀ k sl, (slicesOf cs buf)[k]? = some sl → sl = (buf.drop (k * cs)).take cs ∧ sl ≠ [] ∧ sl.length ≤ cs ∧
      (k + 1 < (slicesOf cs buf).length → sl.length = cs)) ∧
    (buf.length ≤ cs → buf ≠ [] → slicesOf cs buf = [buf])

/-- R141, R148: the bands start at row 0, follow each other without gap or overlap, end at `h`, are never empty, have `b` rows with banding
on except possibly the last, and their rows sum to `h`; with banding off there is one. -/
def Obligations.BandsPartitionPicture : Prop :=
  ∀ b h : Nat, 1 ≤ h →
    (bandsOf b h).head? = some (0, if 0 < b then min b h else h) ∧
    (∀ i p q, (bandsOf b h)[i]? = some p → (bandsOf b h)[i + 1]? = some q → q.1 = p.1 + p.2 ∧ p.2 = b) ∧
    (∀ p, (bandsOf b h).getLast? = some p → p.1 + p.2 = h) ∧
    (∀ p, p ∈ bandsOf b h → 1 ≤ p.2 ∧ (0 < b → p.2 ≤ b)) ∧
    ((bandsOf b h).map fun p => p.2).sum = h ∧
    (bandsOf b h).length = if 0 < b then (h + b - 1) / b else 1

/-- R56, R148: the band bodies laid end to end are exactly the packed bitmap, byte for byte. -/
def Obligations.BandBodiesAreTheBitmap : Prop :=
  ∀ s : State, 1 ≤ s.height →
    s.bands.flatMap (fun band => s.bandBytes band.1 band.2) = (List.range (s.rowBytes * s.height)).map s.readPk

/-- R65: the stream is the Reset command, the frames top to bottom, the Feed command, and its length is
`2 + 8 n + rowBytes * h + 2`. -/
def Obligations.StreamLength : Prop :=
  ∀ s : State, 1 ≤ s.height →
    s.stream.length = 2 + 8 * s.bands.length + s.rowBytes * s.height + 2 ∧
    s.stream.take 2 = [0x1B#8, 0x40#8] ∧ s.stream.drop (s.stream.length - 2) = [0x0A#8, 0x0A#8]

/-- R170, R186: the payloads of the schedule's writes put together are the stream, whatever the chunk size and the delays; and the number
of writes is `ceil(2/cs) + sum over bands (ceil(8/cs) + ceil(rowBytes*rows/cs)) + ceil(2/cs)`. -/
def Obligations.ScheduleCarriesTheStream : Prop :=
  ∀ s : State, 1 ≤ s.chunkSize →
    s.schedule.flatMap Action.bytes = s.stream ∧
    writeCount s.schedule =
      ceilDiv 2 s.chunkSize
        + (s.bands.map fun band => ceilDiv 8 s.chunkSize + ceilDiv (s.rowBytes * band.2) s.chunkSize).sum
        + ceilDiv 2 s.chunkSize

/-! ### The step machine -/

/-- R167, R169: LINK's ok moves OFF past the slice, counts the write and starts the chunk pause if there is one; a wake ends a sleep.
The timer's contents are the model's (log 21). -/
def Obligations.OkAndWakeMoveOn : Prop :=
  (∀ (s : State) (rest : List Turn), s.seq.wait = .write →
    (s.job.chunkDelay.toNat = 0 →
      step { s with turns := .link .ok :: rest } = .next { s with
        turns := rest
        seq := { s.seq with
          off := s.seq.off + min s.chunkSize (s.cur.length - s.seq.off), nwr := s.seq.nwr + 1, wait := .none } }) ∧
    (0 < s.job.chunkDelay.toNat →
      step { s with turns := .link .ok :: rest } = .next { s with
        turns := rest
        history := s.history ++ [.sleep s.job.chunkDelay]
        timer := some s.job.chunkDelay
        seq := { s.seq with
          off := s.seq.off + min s.chunkSize (s.cur.length - s.seq.off), nwr := s.seq.nwr + 1, wait := .csleep } })) ∧
  (∀ (s : State) (rest : List Turn), s.seq.wait = .csleep ∨ s.seq.wait = .bsleep →
    step { s with turns := .timer :: rest } =
      .next { s with turns := rest, timer := none, seq := { s.seq with wait := .none } })

/-- R168, R207, R219: LINK's fail ends the job in the same step: ERR, ERRCODE 2, ERRINFO = NWR, BUSY 0, DONE as it was, SEQ idle and
waiting for nothing; no write and no sleep is emitted, and JOB, PIX, LUM, PK stay. (The record of the failed write is U16's.) -/
def Obligations.FailEndsTheJob : Prop :=
  ∀ (s : State) (rest : List Turn), s.seq.wait = .write →
    ∃ t, step { s with turns := .link .fail :: rest } = .next t ∧
      t = { s with
        turns := rest
        status := { s.status with err := true, errcode := 2#2, busy := false }
        errinfo := BitVec.ofNat 32 s.seq.nwr
        history := s.history ++ [.failed s.seq.nwr]
        seq := { s.seq with phase := .idle, wait := .none } } ∧
      t.emitted = s.emitted ∧ t.wire = s.wire

/-- R168, R207 (no steps after the failure point), R217: while SEQ is idle nothing but a START or a reset of the block changes STATUS,
ERRINFO, JOB, SEQ or the history: nothing is sent. -/
def Obligations.IdleBlockStaysIdle : Prop :=
  ∀ s t : State, s.seq.phase = .idle → s.seq.wait = .none → step s = .next t →
    s.nextTurn ≠ .reset → s.nextTurn ≠ .host (.writeCtrl 1#1) →
    t.seq = s.seq ∧ t.history = s.history ∧ t.status = s.status ∧ t.errinfo = s.errinfo ∧ t.job = s.job ∧
      t.lum = s.lum ∧ t.pk = s.pk

/-- R175, R217: an unanswered write or an unended sleep leaves SEQ where it is for ever: no turn of any other agent but a reset moves it or
emits anything. -/
def Obligations.UnansweredWaitHangs : Prop :=
  ∀ s t : State, s.seq.phase.sends = true ∨ s.seq.phase = .gap → step s = .next t → s.nextTurn ≠ .reset →
    s.status.busy = true →
    (s.seq.wait = .write → (∀ a, s.nextTurn ≠ .link a) → t.seq = s.seq ∧ t.history = s.history ∧ t.status.busy = true) ∧
    (s.seq.wait = .csleep ∨ s.seq.wait = .bsleep → s.nextTurn ≠ .timer →
      t.seq = s.seq ∧ t.history = s.history ∧ t.status.busy = true)

/-- R171, R187: the *advance* step, row by row of its table; out of FEED the job is done. -/
def Obligations.AdvanceFollowsTable : Prop :=
  ∀ (s : State) (rest : List Turn), s.seq.wait = .none →
    (s.seq.phase = .reset → s.seq.off = 2 →
      step { s with turns := .seq :: rest } = .next { s with
        turns := rest
        seq := { s.seq with
          phase := .hdr, y := 0, rows := if 0 < s.bandRows then min s.bandRows s.height else s.height, off := 0 } }) ∧
    (s.seq.phase = .hdr → s.seq.off = 8 →
      step { s with turns := .seq :: rest } =
        .next { s with turns := rest, seq := { s.seq with phase := .body, off := 0 } }) ∧
    (s.seq.phase = .body → s.seq.off = s.rowBytes * s.seq.rows → s.bandRows = 0 →
      step { s with turns := .seq :: rest } =
        .next { s with turns := rest, seq := { s.seq with phase := .feed, off := 0 } }) ∧
    (s.seq.phase = .body → s.seq.off = s.rowBytes * s.seq.rows → 0 < s.bandRows → 0 < s.job.bandDelay.toNat →
      step { s with turns := .seq :: rest } = .next { s with
        turns := rest, history := s.history ++ [.sleep s.job.bandDelay], timer := some s.job.bandDelay
        seq := { s.seq with phase := .gap, wait := .bsleep } }) ∧
    (s.seq.phase = .body → s.seq.off = s.rowBytes * s.seq.rows → 0 < s.bandRows → s.job.bandDelay.toNat = 0 →
      step { s with turns := .seq :: rest } =
        .next { s with turns := rest, seq := { s.seq with phase := .gap } }) ∧
    (s.seq.phase = .gap → s.seq.y + s.bandRows < s.height →
      step { s with turns := .seq :: rest } = .next { s with
        turns := rest
        seq := { s.seq with
          phase := .hdr, y := s.seq.y + s.bandRows, rows := min s.bandRows (s.height - (s.seq.y + s.bandRows))
          off := 0 } }) ∧
    (s.seq.phase = .gap → s.height ≤ s.seq.y + s.bandRows →
      step { s with turns := .seq :: rest } =
        .next { s with turns := rest, seq := { s.seq with phase := .feed, off := 0 } }) ∧
    (s.seq.phase = .feed → s.seq.off = 2 →
      step { s with turns := .seq :: rest } = .next { s with
        turns := rest
        status := { s.status with busy := false, done := true }
        seq := { s.seq with phase := .idle } })

/-- R25, R52, R162, R44: the history is append-only, and a step appends at most one event. A write is handed over only when nothing is
outstanding, carries the number of writes completed before it and between 1 and CHUNKSIZE bytes, and is then the one outstanding
write; a sleep is started only on its way into a pause. -/
def Obligations.WritesAreSerialized : Prop :=
  ∀ s t : State, Inv s → step s = .next t →
    t.history = s.history ∨
    (∃ bs, t.history = s.history ++ [.write s.seq.nwr bs] ∧ s.seq.wait = .none ∧ t.seq.wait = .write ∧
      t.seq.nwr = s.seq.nwr ∧ 1 ≤ bs.length ∧ bs.length ≤ s.chunkSize) ∨
    (∃ ms, t.history = s.history ++ [.sleep ms] ∧ t.timer = some ms ∧
      ((s.seq.wait = .write ∧ t.seq.wait = .csleep ∧ t.seq.nwr = s.seq.nwr + 1) ∨
        (s.seq.wait = .none ∧ t.seq.wait = .bsleep ∧ t.seq.nwr = s.seq.nwr))) ∨
    (t.history = s.history ++ [.failed s.seq.nwr] ∧ s.seq.wait = .write ∧ t.seq.phase = .idle)

/-- R172: the step machine and the schedule agree, as a conserved quantity: in the transmit part every step but a failed write, a START and
a reset keeps "the actions emitted, then the actions still to come" the same list. -/
def Obligations.EmittedPlusRemainingIsConserved : Prop :=
  ∀ s t : State, Inv s → s.seq.phase.sends = true ∨ s.seq.phase = .gap → step s = .next t →
    s.nextTurn ≠ .reset → s.nextTurn ≠ .link .fail →
    t.emitted ++ t.remaining = s.emitted ++ s.remaining

/-- R172: in every run of the transmit part, whatever LINK and TIMER do and however the agents interleave, the events emitted are a
prefix of the schedule of R170, and of its bytes a prefix of the stream of R65. -/
def Obligations.EmittedIsPrefixOfSchedule : Prop :=
  ∀ (s t : State) (n : Nat), Inv s → AtTransmitStart s →
    (∀ tn ∈ s.turns, tn ≠ .reset ∧ tn ≠ .host (.writeCtrl 1#1)) → runSteps n s = .next t →
    (∃ l, t.emitted = s.emitted ++ l ∧ l <+: s.schedule ∧ l.flatMap Action.bytes <+: s.stream) ∧
    (t.status.done = true → t.emitted = s.emitted ++ s.schedule)

/-- R172, R173, R187: from the start of the transmit part there is a run in which LINK answers every write ok and TIMER ends every sleep, and it
ends with the whole schedule emitted, the whole stream on the wire, DONE set and BUSY clear. -/
def Obligations.JobRunsToDone : Prop :=
  ∀ s : State, Inv s → AtTransmitStart s →
    ∃ (turns : List Turn) (t : State),
      (∀ tn ∈ turns, tn = .seq ∨ tn = .link .ok ∨ tn = .timer) ∧
      runSteps turns.length { s with turns := turns } = .next t ∧
      t.turns = [] ∧ t.seq.phase = .idle ∧ t.status.done = true ∧ t.status.busy = false ∧ t.status.err = s.status.err ∧
      t.emitted = s.emitted ++ s.schedule ∧ t.wire = s.wire ++ s.stream ∧ t.pk = s.pk ∧ t.pix = s.pix ∧
      t.seq.nwr = writeCount s.schedule

/-- R172, R168: whenever write number `k` fails, in every run of the transmit part without a reset or a START and however the agents
interleave, the events emitted are exactly the schedule's actions up to and including that write, `k` is one of the schedule's writes,
the job has ended in TransportError and ERRINFO is `k`. And every write can fail: for each `k` there is a run in which LINK answers ok
`k` times and then fail. (`l` is what the run adds to the history, where the model records the failed write, log 13.) -/
def Obligations.FailedWriteStopsTheSchedule : Prop :=
  (∀ (s t : State) (n k : Nat) (l : List Event), Inv s → AtTransmitStart s →
    (∀ tn ∈ s.turns, tn ≠ .reset ∧ tn ≠ .host (.writeCtrl 1#1)) → runSteps n s = .next t →
    t.history = s.history ++ l → .failed k ∈ l →
    k < writeCount s.schedule ∧ t.emitted = s.emitted ++ uptoWrite k s.schedule ∧ t.errinfo.toNat = k ∧
      t.seq.phase = .idle ∧ t.status.err = true ∧ t.status.errcode = 2#2 ∧ t.status.busy = false ∧ t.status.done = false) ∧
  (∀ (s : State) (k : Nat), Inv s → AtTransmitStart s → k < writeCount s.schedule →
    ∃ (turns : List Turn) (t : State),
      linkAnswers turns = List.replicate k .ok ++ [.fail] ∧
      (∀ tn ∈ turns, tn = .seq ∨ tn = .link .ok ∨ tn = .link .fail ∨ tn = .timer) ∧
      runSteps turns.length { s with turns := turns } = .next t ∧
      t.turns = [] ∧ t.seq.phase = .idle ∧ t.status.err = true ∧ t.status.errcode = 2#2 ∧ t.status.busy = false ∧
      t.status.done = false ∧ t.errinfo.toNat = k ∧ t.emitted = s.emitted ++ uptoWrite k s.schedule)

/-- R186, R180, R185, R187: the whole job as a function. From every idle state with Inv and a legal configuration, whatever ran before, there
is a run that begins with START, in which LINK answers every write ok and TIMER ends every sleep, and that ends DONE with exactly the
stream of the rendered picture sent: the Reset command, each band's header and its rows of `pack(quant(tone(luma(PIX))))`, the Feed
command. That RENDER is four steps is the model's choice (log 2). -/
def Obligations.WholeJobSendsThePicture : Prop :=
  ∀ s : State, Inv s → s.status.busy = false → 1 ≤ s.cfg.w.toNat → 1 ≤ s.cfg.h.toNat → 1 ≤ s.cfg.chunkSize.toNat →
    ∃ (turns : List Turn) (t : State),
      (∀ tn ∈ turns, tn = .seq ∨ tn = .link .ok ∨ tn = .timer) ∧
      runSteps (turns.length + 1) { s with turns := .host (.writeCtrl 1#1) :: turns } = .next t ∧
      t.turns = [] ∧ t.seq.phase = .idle ∧ t.status.done = true ∧ t.status.busy = false ∧ t.status.err = false ∧
      t.cfg = s.cfg ∧ t.pix = s.pix ∧
      t.job = { s.cfg with qmode := if 5 ≤ s.cfg.qmode.toNat then 1#3 else s.cfg.qmode } ∧
      t.wire = s.wire ++ ([0x1B#8, 0x40#8] ++
        (bandsOf t.bandRows t.height).flatMap (fun band =>
          headerBytes t.rowBytes band.2 ++
            (List.range (t.rowBytes * band.2)).map fun k =>
              renderByte Params.adopted s.lumFree s.readPix t.job (band.1 * t.rowBytes + k)) ++
        [0x0A#8, 0x0A#8])

/-- R24: inside a job SEQ never moves backward: from the transmit part on, every step that leaves the job running leaves SEQ no earlier than
it was. -/
def Obligations.SequencerNeverMovesBack : Prop :=
  ∀ s t : State, Inv s → s.seq.phase.sends = true ∨ s.seq.phase = .gap → step s = .next t → t.status.busy = true →
    NotBefore s.seq t.seq

/-! ### Whole-machine rules -/

/-- R41, R42, R43, R10, R28, R51: the block never writes PIX or CFG; only LUMA, TONE and QUANT write LUM, only PACK writes PK; and the
host's PIX writes count only while no job runs. -/
def Obligations.MemoriesHaveOneWriter : Prop :=
  ∀ s t : State, step s = .next t → s.nextTurn ≠ .reset →
    (t.pix ≠ s.pix → ∃ i px, s.nextTurn = .host (.writePix i px) ∧ s.status.busy = false) ∧
    (t.cfg ≠ s.cfg → ∃ a, s.nextTurn = .host a) ∧
    (t.lum ≠ s.lum → s.nextTurn = .seq ∧ s.seq.phase = .render ∧ s.stage ≠ .pack) ∧
    (t.pk ≠ s.pk → s.nextTurn = .seq ∧ s.seq.phase = .render ∧ s.stage = .pack)

/-- R23, R55, R239: JOB does not change until the next accepted START (or a reset of the block). -/
def Obligations.OnlyStartChangesJob : Prop :=
  ∀ s t : State, Inv s → step s = .next t → t.job ≠ s.job →
    s.nextTurn = .reset ∨ (s.nextTurn = .host (.writeCtrl 1#1) ∧ s.status.busy = false)
end

