-- ==== Sys2Proof/Laws/Memory.lean ====
section
/-! SUPPORT. Reading after writing, and that a write keeps a memory's canonical form. -/

namespace Sys2Proof.Machine

open Sys2Proof

variable {α : Type}

@[simp] theorem memGet_nil (a : Nat) : memGet ([] : Mem α) a = none := rfl

/-- A read after a write: the written element, and every other one as before. -/
theorem memGet_memSet (m : Mem α) (a b : Nat) (v : α) :
    memGet (memSet m a v) b = if b = a then some v else memGet m b := by
  induction m with
  | nil => simp [memSet, memGet]
  | cons c rest ih =>
    obtain ⟨i, u⟩ := c
    by_cases hlt : a < i
    · simp [memSet, memGet, hlt]
    · by_cases heq : a = i
      · subst heq
        by_cases hb : b = a <;> simp [memSet, memGet, hb]
      · by_cases hb : b = i
        · subst hb
          simp [memSet, memGet, hlt, heq, Ne.symm heq]
        · simp [memSet, memGet, hlt, heq, hb, ih]

@[simp] theorem memGet_memSet_same (m : Mem α) (a : Nat) (v : α) : memGet (memSet m a v) a = some v := by
  simp [memGet_memSet]

/-- A read after a write, with the free values of unwritten elements. -/
theorem memRead_memSet (free : Nat → α) (m : Mem α) (a b : Nat) (v : α) :
    memRead free (memSet m a v) b = if b = a then v else memRead free m b := by
  unfold memRead
  rw [memGet_memSet]
  split <;> simp

@[simp] theorem memRead_memSet_same (free : Nat → α) (m : Mem α) (a : Nat) (v : α) :
    memRead free (memSet m a v) a = v := by
  simp [memRead_memSet]

theorem memRead_memSet_other (free : Nat → α) (m : Mem α) {a b : Nat} (v : α) (h : b ≠ a) :
    memRead free (memSet m a v) b = memRead free m b := by
  simp [memRead_memSet, h]

/-- Every index listed in a canonical memory after its head lies above the head's. -/
theorem memSet_head_lt (m : Mem α) (a : Nat) (v : α) {i : Nat} {u : α} (h : Mem.wf ((i, u) :: m) = true) (hi : i < a) :
    Mem.wf ((i, u) :: memSet m a v) = true := by
  induction m generalizing i u with
  | nil => simp [memSet, Mem.wf, hi]
  | cons c rest ih =>
    obtain ⟨j, x⟩ := c
    simp only [Mem.wf, Bool.and_eq_true, decide_eq_true_eq] at h
    by_cases hlt : a < j
    · simp [memSet, hlt, Mem.wf, hi, h.2]
    · by_cases heq : a = j
      · subst heq
        cases rest with
        | nil => simp [memSet, Mem.wf, h.1]
        | cons d rest' =>
          simp only [Mem.wf, Bool.and_eq_true, decide_eq_true_eq] at h
          simp [memSet, Mem.wf, h.1, h.2.1, h.2.2]
      · have hj : j < a := by omega
        have := ih h.2 hj
        simp [memSet, hlt, heq, Mem.wf, h.1, this]

/-- A write keeps the canonical form. -/
theorem wf_memSet (m : Mem α) (a : Nat) (v : α) (h : Mem.wf m = true) : Mem.wf (memSet m a v) = true := by
  cases m with
  | nil => simp [memSet, Mem.wf]
  | cons c rest =>
    obtain ⟨i, u⟩ := c
    by_cases hlt : a < i
    · simp [memSet, hlt, Mem.wf, h]
    · by_cases heq : a = i
      · subst heq
        cases rest with
        | nil => simp [memSet, Mem.wf]
        | cons d rest' =>
          simp only [Mem.wf, Bool.and_eq_true, decide_eq_true_eq] at h
          simp [memSet, Mem.wf, h.1, h.2]
      · have := memSet_head_lt rest a v h (by omega)
        simpa [memSet, hlt, heq] using this

/-- The memories after reset are canonical. -/
theorem wf_reset_memories :
    Mem.wf State.reset.pix = true ∧ Mem.wf State.reset.lum = true ∧ Mem.wf State.reset.pk = true := ⟨rfl, rfl, rfl⟩

end Sys2Proof.Machine
end

