-- ==== Sys2Proof/Laws/Loops.lean ====
section
/-! SUPPORT. Induction over the loops of the stage pseudocode, once: a property kept by the body is kept by the loop, and a loop
that writes each element of the grid once leaves exactly what it wrote. -/

namespace Sys2Proof.Machine

open Sys2Proof

variable {σ α : Type}

/-- Induction over a rising loop, with the number of finished passes. -/
theorem forUp_induct (P : Nat → σ → Prop) (f : Nat → σ → σ) (n : Nat) (s : σ) (h0 : P 0 s)
    (hstep : ∀ i, i < n → ∀ t, P i t → P (i + 1) (f i t)) : P n (forUp n f s) := by
  induction n with
  | zero => exact h0
  | succ n ih => exact hstep n (by omega) _ (ih fun i hi => hstep i (by omega))

/-- Induction over a falling loop, with the number of passes still to come. -/
theorem forDown_induct (P : Nat → σ → Prop) (f : Nat → σ → σ) (n : Nat) (s : σ) (h0 : P n s)
    (hstep : ∀ i, i < n → ∀ t, P (i + 1) t → P i (f i t)) : P 0 (forDown n f s) := by
  induction n generalizing s with
  | zero => exact h0
  | succ n ih => exact ih (f n s) (hstep n (by omega) s h0) fun i hi => hstep i (by omega)

/-- A property the body keeps is kept by a rising loop. -/
theorem forUp_keeps (P : σ → Prop) (f : Nat → σ → σ) (n : Nat) (s : σ) (h0 : P s)
    (hstep : ∀ i, i < n → ∀ t, P t → P (f i t)) : P (forUp n f s) :=
  forUp_induct (fun _ => P) f n s h0 hstep

/-- A property the body keeps is kept by a falling loop. -/
theorem forDown_keeps (P : σ → Prop) (f : Nat → σ → σ) (n : Nat) (s : σ) (h0 : P s)
    (hstep : ∀ i, i < n → ∀ t, P t → P (f i t)) : P (forDown n f s) :=
  forDown_induct (fun _ => P) f n s h0 hstep

/-- A property the body keeps is kept by a loop over the grid. -/
theorem forGrid_keeps (P : σ → Prop) (f : Nat → Nat → σ → σ) (w h : Nat) (s : σ) (h0 : P s)
    (hstep : ∀ y, y < h → ∀ x, x < w → ∀ t, P t → P (f y x t)) : P (forGrid w h f s) :=
  forUp_keeps P _ h s h0 fun y hy t ht => forUp_keeps P _ w t ht (hstep y hy)

/-- Two pixels of a grid with one address are one pixel. -/
theorem pixelAddr_inj {w x y x' y' : Nat} (hx : x < w) (hx' : x' < w) (h : pixelAddr w x y = pixelAddr w x' y') :
    x = x' ∧ y = y' := by
  unfold pixelAddr at h
  have h1 : (y * w + x) % w = x := by rw [Nat.add_comm, Nat.add_mul_mod_self_right, Nat.mod_eq_of_lt hx]
  have h2 : (y' * w + x') % w = x' := by rw [Nat.add_comm, Nat.add_mul_mod_self_right, Nat.mod_eq_of_lt hx']
  have hxx : x = x' := by rw [← h1, ← h2, h]
  subst hxx
  have : y * w = y' * w := by omega
  exact ⟨rfl, Nat.eq_of_mul_eq_mul_right (by omega) this⟩

/-- The address of a pixel of the grid lies below `w * h`. -/
theorem pixelAddr_lt {w h x y : Nat} (hx : x < w) (hy : y < h) : pixelAddr w x y < w * h := by
  unfold pixelAddr
  have : (y + 1) * w ≤ h * w := Nat.mul_le_mul_right w hy
  rw [Nat.mul_comm w h]
  have h2 : (y + 1) * w = y * w + w := Nat.succ_mul y w
  omega

/-- Every element below `w * h` is a pixel of the grid. -/
theorem exists_pixelAddr {w h a : Nat} (ha : a < w * h) : ∃ x y, x < w ∧ y < h ∧ a = pixelAddr w x y := by
  have hw : 0 < w := Nat.pos_of_ne_zero (by rintro rfl; simp at ha)
  refine ⟨a % w, a / w, Nat.mod_lt _ hw, Nat.div_lt_of_lt_mul ha, ?_⟩
  unfold pixelAddr
  rw [Nat.mul_comm]
  exact (Nat.div_add_mod a w).symm

/-- A row of writes, each a function of the element's old value: what every element reads afterwards. -/
theorem forUp_row_read (free : Nat → α) (addr : Nat → Nat) (g : Nat → α → α) (n : Nat) (m : Mem α)
    (hinj : ∀ i, i < n → ∀ j, j < n → addr i = addr j → i = j) :
    (∀ i, i < n → memRead free (forUp n (fun i m => memSet m (addr i) (g i (memRead free m (addr i)))) m) (addr i)
        = g i (memRead free m (addr i))) ∧
    (∀ a, (∀ i, i < n → a ≠ addr i) →
      memRead free (forUp n (fun i m => memSet m (addr i) (g i (memRead free m (addr i)))) m) a = memRead free m a) := by
  induction n with
  | zero => simp [forUp]
  | succ n ih =>
    obtain ⟨ih1, ih2⟩ := ih fun i hi j hj => hinj i (by omega) j (by omega)
    refine ⟨fun i hi => ?_, fun a ha => ?_⟩
    · simp only [forUp]
      by_cases hin : i = n
      · subst hin
        rw [memRead_memSet_same, ih2 _ fun j hj he => by have := hinj i (by omega) j (by omega) he; omega]
      · rw [memRead_memSet_other _ _ _ fun he => hin (hinj i hi n (by omega) he)]
        exact ih1 i (by omega)
    · simp only [forUp]
      rw [memRead_memSet_other _ _ _ (ha n (by omega))]
      exact ih2 a fun i hi => ha i (by omega)

/-- A grid of writes, each a function of the element's old value: what every element reads afterwards. -/
theorem forGrid_read (free : Nat → α) (g : Nat → Nat → α → α) (w h : Nat) (m : Mem α) :
    (∀ x y, x < w → y < h →
      memRead free
        (forGrid w h (fun y x m => memSet m (pixelAddr w x y) (g x y (memRead free m (pixelAddr w x y)))) m)
        (pixelAddr w x y) = g x y (memRead free m (pixelAddr w x y))) ∧
    (∀ a, w * h ≤ a →
      memRead free
        (forGrid w h (fun y x m => memSet m (pixelAddr w x y) (g x y (memRead free m (pixelAddr w x y)))) m) a
        = memRead free m a) := by
  have row : ∀ y (m : Mem α), _ := fun y m =>
    forUp_row_read free (fun x => pixelAddr w x y) (fun x v => g x y v) w m
      fun i hi j hj he => (pixelAddr_inj hi hj he).1
  have key : ∀ n, n ≤ h →
      (∀ x y, x < w → y < n →
        memRead free
          (forGrid w n (fun y x m => memSet m (pixelAddr w x y) (g x y (memRead free m (pixelAddr w x y)))) m)
          (pixelAddr w x y) = g x y (memRead free m (pixelAddr w x y))) ∧
      (∀ a, (∀ x y, x < w → y < n → a ≠ pixelAddr w x y) →
        memRead free
          (forGrid w n (fun y x m => memSet m (pixelAddr w x y) (g x y (memRead free m (pixelAddr w x y)))) m) a
          = memRead free m a) := by
    intro n hn
    induction n with
    | zero => simp [forGrid, forUp]
    | succ n ih =>
      obtain ⟨ih1, ih2⟩ := ih (by omega)
      simp only [forGrid, forUp] at ih1 ih2 ⊢
      obtain ⟨r1, r2⟩ := row n (forGrid w n
        (fun y x m => memSet m (pixelAddr w x y) (g x y (memRead free m (pixelAddr w x y)))) m)
      simp only [forGrid] at r1 r2
      refine ⟨fun x y hx hy => ?_, fun a ha => ?_⟩
      · by_cases hyn : y = n
        · subst hyn
          rw [r1 x hx, ih2 _ fun x' y' hx' hy' he => by have := (pixelAddr_inj hx hx' he).2; omega]
        · rw [r2 _ fun i hi he => hyn (pixelAddr_inj hx hi he).2]
          exact ih1 x y hx (by omega)
      · rw [r2 a fun i hi => ha i n hi (by omega)]
        exact ih2 a fun x y hx hy => ha x y hx (by omega)
  obtain ⟨k1, k2⟩ := key h (Nat.le_refl h)
  refine ⟨k1, fun a ha => k2 a fun x y hx hy he => ?_⟩
  have := pixelAddr_lt hx hy
  omega

end Sys2Proof.Machine
end

