-- ==== Sys2Proof/Laws/Schedule.lean ====
section
/-! SUPPORT. The schedule one piece at a time: the first slice of a buffer and the rest of it, the bands one after the other. -/

namespace Sys2Proof.Machine

open Sys2Proof

/-! ### Slices -/

theorem lt_ceilDiv_iff {a b k : Nat} (hb : 0 < b) : k < ceilDiv a b ↔ k * b < a := by
  unfold ceilDiv
  rw [Nat.lt_iff_add_one_le, Nat.le_div_iff_mul_le hb, Nat.add_mul, Nat.one_mul]
  omega

theorem ceilDiv_eq_succ {a b : Nat} (hb : 0 < b) (ha : 0 < a) : ceilDiv a b = ceilDiv (a - b) b + 1 := by
  unfold ceilDiv
  by_cases h : b ≤ a
  · rw [show a + b - 1 = (a - b + b - 1) + b by omega, Nat.add_div_right _ hb]
  · rw [show a - b = 0 by omega, show a + b - 1 = (a - 1) + b by omega, Nat.add_div_right _ hb,
      Nat.div_eq_of_lt (by omega : a - 1 < b), Nat.div_eq_of_lt (by omega : 0 + b - 1 < b)]

@[simp] theorem slicesOf_nil (cs : Nat) : slicesOf cs [] = [] := by
  have : ceilDiv 0 cs = 0 := by
    unfold ceilDiv
    rcases Nat.eq_zero_or_pos cs with h | h
    · simp [h]
    · exact Nat.div_eq_of_lt (by omega)
  simp [slicesOf, this]

/-- The first slice, then the slices of the rest (R160, R161). -/
theorem slicesOf_cons {cs : Nat} {buf : List Byte} (hcs : 0 < cs) (hb : buf ≠ []) :
    slicesOf cs buf = buf.take cs :: slicesOf cs (buf.drop cs) := by
  have hlen : 0 < buf.length := List.length_pos_iff.2 hb
  unfold slicesOf
  rw [ceilDiv_eq_succ hcs hlen, List.range_succ_eq_map, List.map_cons, List.map_map, List.length_drop]
  congr 1
  · simp only [byteRange, Nat.zero_mul, List.drop_zero, Nat.zero_add, Nat.one_mul, Nat.sub_zero]
    rcases Nat.le_total cs buf.length with h | h
    · rw [Nat.min_eq_left h]
    · rw [Nat.min_eq_right h, List.take_length, List.take_of_length_le h]
  · refine List.map_congr_left fun k hk => ?_
    have hk' : k * cs < buf.length - cs := (lt_ceilDiv_iff hcs).1 (List.mem_range.1 hk)
    have e1 : (k + 1) * cs = cs + k * cs := by rw [Nat.add_mul, Nat.one_mul, Nat.add_comm]
    have e2 : (k + 1 + 1) * cs = (k + 1) * cs + cs := by rw [Nat.add_mul, Nat.one_mul]
    have e3 : min ((k + 1 + 1) * cs) buf.length - (k + 1) * cs = min ((k + 1) * cs) (buf.length - cs) - k * cs := by
      rw [e2]
      omega
    simp only [Function.comp, byteRange, List.drop_drop, Nat.succ_eq_add_one]
    rw [e3, e1]

@[simp] theorem chunkActions_nil (cs : Nat) (cd : Half) : chunkActions cs cd [] = [] := by simp [chunkActions]

/-- The first slice and its pause, then the rest of the buffer (R170). -/
theorem chunkActions_cons {cs : Nat} {cd : Half} {buf : List Byte} (hcs : 0 < cs) (hb : buf ≠ []) :
    chunkActions cs cd buf = .write (buf.take cs) :: (pauseActions cd ++ chunkActions cs cd (buf.drop cs)) := by
  simp [chunkActions, slicesOf_cons hcs hb]

/-- The slice *issue* hands over is the first slice of what is left of the buffer (R166). -/
theorem byteRange_slice (s : State) (buf : List Byte) :
    byteRange buf s.seq.off (s.seq.off + s.sliceLen buf.length) = (buf.drop s.seq.off).take s.chunkSize := by
  unfold byteRange State.sliceLen
  rw [Nat.add_sub_cancel_left]
  rcases Nat.le_total s.chunkSize (buf.length - s.seq.off) with h | h
  · rw [Nat.min_eq_left h]
  · rw [Nat.min_eq_right h, List.take_of_length_le (by simp), List.take_of_length_le (by simpa using h)]

/-! ### Bands -/

@[simp] theorem bandsOf_plain (h : Nat) : bandsOf 0 h = [(0, h)] := rfl

/-- The bands with banding on (R141). -/
theorem mem_bandsOf {b h : Nat} (hb : 0 < b) {band : Nat × Nat} :
    band ∈ bandsOf b h ↔ ∃ i, i * b < h ∧ band = (i * b, min b (h - i * b)) := by
  simp only [bandsOf, hb, if_true, List.mem_map, List.mem_range, lt_ceilDiv_iff hb]
  constructor
  · rintro ⟨i, hi, rfl⟩
    exact ⟨i, hi, rfl⟩
  · rintro ⟨i, hi, rfl⟩
    exact ⟨i, hi, rfl⟩

/-- The bands below row `i * b`, from the next one on. -/
theorem bandsOf_filter {b h i : Nat} (hb : 0 < b) :
    (bandsOf b h).filter (fun band => decide (i * b < band.1))
      = (List.range' (i + 1) (ceilDiv h b - (i + 1))).map fun j => (j * b, min b (h - j * b)) := by
  simp only [bandsOf, hb, if_true, List.filter_map]
  congr 1
  have hf : ((fun band : Nat × Nat => decide (i * b < band.1)) ∘ fun j => (j * b, min b (h - j * b)))
      = fun j => decide (i < j) := by
    funext j
    simp only [Function.comp]
    congr 1
    exact propext ⟨fun hlt => Nat.lt_of_mul_lt_mul_right hlt, fun hlt => Nat.mul_lt_mul_of_pos_right hlt hb⟩
  rw [hf, List.range_eq_range']
  generalize ceilDiv h b = n
  rcases Nat.le_total (i + 1) n with hn | hn
  · obtain ⟨k, rfl⟩ := Nat.exists_eq_add_of_le hn
    rw [show List.range' 0 (i + 1 + k) = List.range' 0 (i + 1) ++ List.range' (i + 1) k by
      simpa using (List.range'_append (s := 0) (m := i + 1) (n := k) (step := 1)).symm]
    rw [List.filter_append, List.filter_eq_nil_iff.2, List.nil_append, List.filter_eq_self.2,
      Nat.add_sub_cancel_left]
    · intro j hj
      have := List.mem_range'_1.1 hj
      simp only [decide_eq_true_eq]
      omega
    · intro j hj
      have := List.mem_range'_1.1 hj
      simp only [decide_eq_true_eq]
      omega
  · rw [List.filter_eq_nil_iff.2, show n - (i + 1) = 0 by omega, List.range'_zero]
    intro j hj
    have := List.mem_range'_1.1 hj
    simp only [decide_eq_true_eq]
    omega

/-- The first band, then the bands below row 0 (R141). -/
theorem bandsOf_first (b : Nat) {h : Nat} (hh : 0 < h) :
    bandsOf b h = (0, if 0 < b then min b h else h) :: (bandsOf b h).filter fun band => decide (0 < band.1) := by
  rcases Nat.eq_zero_or_pos b with hb | hb
  · subst hb
    simp
  · have hf := bandsOf_filter (b := b) (h := h) (i := 0) hb
    simp only [Nat.zero_mul] at hf
    rw [hf]
    simp only [bandsOf, hb, if_true]
    obtain ⟨n, hn⟩ : ∃ n, ceilDiv h b = n + 1 :=
      ⟨ceilDiv h b - 1, by
        have := (lt_ceilDiv_iff (k := 0) hb).2 (by omega : 0 * b < h)
        omega⟩
    rw [hn, List.range_eq_range', List.range'_succ]
    simp

/-- The next band, then the bands below it (R141). -/
theorem bandsOf_next {b h i : Nat} (hb : 0 < b) (hi : (i + 1) * b < h) :
    (bandsOf b h).filter (fun band => decide (i * b < band.1))
      = ((i + 1) * b, min b (h - (i + 1) * b)) ::
          (bandsOf b h).filter (fun band => decide ((i + 1) * b < band.1)) := by
  rw [bandsOf_filter hb, bandsOf_filter hb]
  obtain ⟨n, hn⟩ : ∃ n, ceilDiv h b - (i + 1) = n + 1 :=
    ⟨ceilDiv h b - (i + 1) - 1, by
      have := (lt_ceilDiv_iff hb).2 hi
      omega⟩
  rw [hn, List.range'_succ, List.map_cons, show ceilDiv h b - (i + 1 + 1) = n by omega]

/-- Below the last band there is none (R148). -/
theorem bandsOf_last {b h i : Nat} (hb : 0 < b) (hi : h ≤ (i + 1) * b) :
    (bandsOf b h).filter (fun band => decide (i * b < band.1)) = [] := by
  rw [bandsOf_filter hb]
  have : ¬ i + 1 < ceilDiv h b := fun hlt => by
    have := (lt_ceilDiv_iff hb).1 hlt
    omega
  rw [show ceilDiv h b - (i + 1) = 0 by omega]
  rfl

end Sys2Proof.Machine
end

