-- ==== Sys2Proof/Laws/State.lean ====
section
/-! SUPPORT. What each named update of the state leaves in each field: one lemma per field, so that no proof unfolds a record
update. -/

namespace Sys2Proof.Machine

open Sys2Proof

/-! ### clearFlags -/

@[simp] theorem clearFlags_cfg (s : State) : s.clearFlags.cfg = s.cfg := rfl
@[simp] theorem clearFlags_status (s : State) :
    s.clearFlags.status = { s.status with done := false, err := false, errcode := 0#2, rej := false, fallback := false } := rfl
@[simp] theorem clearFlags_errinfo (s : State) : s.clearFlags.errinfo = 0#32 := rfl
@[simp] theorem clearFlags_job (s : State) : s.clearFlags.job = s.job := rfl
@[simp] theorem clearFlags_seq (s : State) : s.clearFlags.seq = s.seq := rfl
@[simp] theorem clearFlags_stage (s : State) : s.clearFlags.stage = s.stage := rfl
@[simp] theorem clearFlags_timer (s : State) : s.clearFlags.timer = s.timer := rfl
@[simp] theorem clearFlags_pix (s : State) : s.clearFlags.pix = s.pix := rfl
@[simp] theorem clearFlags_lum (s : State) : s.clearFlags.lum = s.lum := rfl
@[simp] theorem clearFlags_pk (s : State) : s.clearFlags.pk = s.pk := rfl
@[simp] theorem clearFlags_history (s : State) : s.clearFlags.history = s.history := rfl
@[simp] theorem clearFlags_turns (s : State) : s.clearFlags.turns = s.turns := rfl
@[simp] theorem clearFlags_hostData (s : State) : s.clearFlags.hostData = s.hostData := rfl
@[simp] theorem clearFlags_resets (s : State) : s.clearFlags.resets = s.resets := rfl
@[simp] theorem clearFlags_draws (s : State) : s.clearFlags.draws = s.draws := rfl

/-! ### flagFallback -/

@[simp] theorem flagFallback_cfg (s : State) : s.flagFallback.cfg = s.cfg := rfl
@[simp] theorem flagFallback_status (s : State) : s.flagFallback.status = { s.status with fallback := true } := rfl
@[simp] theorem flagFallback_errinfo (s : State) : s.flagFallback.errinfo = s.errinfo := rfl
@[simp] theorem flagFallback_job (s : State) : s.flagFallback.job = s.job := rfl
@[simp] theorem flagFallback_seq (s : State) : s.flagFallback.seq = s.seq := rfl
@[simp] theorem flagFallback_stage (s : State) : s.flagFallback.stage = s.stage := rfl
@[simp] theorem flagFallback_timer (s : State) : s.flagFallback.timer = s.timer := rfl
@[simp] theorem flagFallback_pix (s : State) : s.flagFallback.pix = s.pix := rfl
@[simp] theorem flagFallback_lum (s : State) : s.flagFallback.lum = s.lum := rfl
@[simp] theorem flagFallback_pk (s : State) : s.flagFallback.pk = s.pk := rfl
@[simp] theorem flagFallback_history (s : State) : s.flagFallback.history = s.history := rfl
@[simp] theorem flagFallback_turns (s : State) : s.flagFallback.turns = s.turns := rfl
@[simp] theorem flagFallback_hostData (s : State) : s.flagFallback.hostData = s.hostData := rfl
@[simp] theorem flagFallback_resets (s : State) : s.flagFallback.resets = s.resets := rfl
@[simp] theorem flagFallback_draws (s : State) : s.flagFallback.draws = s.draws := rfl

/-! ### recordError -/

@[simp] theorem recordError_cfg (c : BitVec 2) (e : BitVec 32) (s : State) : (s.recordError c e).cfg = s.cfg := rfl
@[simp] theorem recordError_status (c : BitVec 2) (e : BitVec 32) (s : State) :
    (s.recordError c e).status = { s.status with err := true, errcode := c } := rfl
@[simp] theorem recordError_errinfo (c : BitVec 2) (e : BitVec 32) (s : State) : (s.recordError c e).errinfo = e := rfl
@[simp] theorem recordError_job (c : BitVec 2) (e : BitVec 32) (s : State) : (s.recordError c e).job = s.job := rfl
@[simp] theorem recordError_seq (c : BitVec 2) (e : BitVec 32) (s : State) : (s.recordError c e).seq = s.seq := rfl
@[simp] theorem recordError_stage (c : BitVec 2) (e : BitVec 32) (s : State) :
    (s.recordError c e).stage = s.stage := rfl
@[simp] theorem recordError_timer (c : BitVec 2) (e : BitVec 32) (s : State) :
    (s.recordError c e).timer = s.timer := rfl
@[simp] theorem recordError_pix (c : BitVec 2) (e : BitVec 32) (s : State) : (s.recordError c e).pix = s.pix := rfl
@[simp] theorem recordError_lum (c : BitVec 2) (e : BitVec 32) (s : State) : (s.recordError c e).lum = s.lum := rfl
@[simp] theorem recordError_pk (c : BitVec 2) (e : BitVec 32) (s : State) : (s.recordError c e).pk = s.pk := rfl
@[simp] theorem recordError_history (c : BitVec 2) (e : BitVec 32) (s : State) :
    (s.recordError c e).history = s.history := rfl
@[simp] theorem recordError_turns (c : BitVec 2) (e : BitVec 32) (s : State) :
    (s.recordError c e).turns = s.turns := rfl
@[simp] theorem recordError_hostData (c : BitVec 2) (e : BitVec 32) (s : State) :
    (s.recordError c e).hostData = s.hostData := rfl
@[simp] theorem recordError_resets (c : BitVec 2) (e : BitVec 32) (s : State) :
    (s.recordError c e).resets = s.resets := rfl
@[simp] theorem recordError_draws (c : BitVec 2) (e : BitVec 32) (s : State) :
    (s.recordError c e).draws = s.draws := rfl

/-! ### flagBusy -/

@[simp] theorem flagBusy_cfg (s : State) : s.flagBusy.cfg = s.cfg := rfl
@[simp] theorem flagBusy_status (s : State) : s.flagBusy.status = { s.status with busy := true } := rfl
@[simp] theorem flagBusy_errinfo (s : State) : s.flagBusy.errinfo = s.errinfo := rfl
@[simp] theorem flagBusy_job (s : State) : s.flagBusy.job = s.job := rfl
@[simp] theorem flagBusy_seq (s : State) : s.flagBusy.seq = s.seq := rfl
@[simp] theorem flagBusy_stage (s : State) : s.flagBusy.stage = s.stage := rfl
@[simp] theorem flagBusy_timer (s : State) : s.flagBusy.timer = s.timer := rfl
@[simp] theorem flagBusy_pix (s : State) : s.flagBusy.pix = s.pix := rfl
@[simp] theorem flagBusy_lum (s : State) : s.flagBusy.lum = s.lum := rfl
@[simp] theorem flagBusy_pk (s : State) : s.flagBusy.pk = s.pk := rfl
@[simp] theorem flagBusy_history (s : State) : s.flagBusy.history = s.history := rfl
@[simp] theorem flagBusy_turns (s : State) : s.flagBusy.turns = s.turns := rfl
@[simp] theorem flagBusy_hostData (s : State) : s.flagBusy.hostData = s.hostData := rfl
@[simp] theorem flagBusy_resets (s : State) : s.flagBusy.resets = s.resets := rfl
@[simp] theorem flagBusy_draws (s : State) : s.flagBusy.draws = s.draws := rfl

/-! ### flagDone -/

@[simp] theorem flagDone_cfg (s : State) : s.flagDone.cfg = s.cfg := rfl
@[simp] theorem flagDone_status (s : State) : s.flagDone.status = { s.status with busy := false, done := true } := rfl
@[simp] theorem flagDone_errinfo (s : State) : s.flagDone.errinfo = s.errinfo := rfl
@[simp] theorem flagDone_job (s : State) : s.flagDone.job = s.job := rfl
@[simp] theorem flagDone_seq (s : State) : s.flagDone.seq = s.seq := rfl
@[simp] theorem flagDone_stage (s : State) : s.flagDone.stage = s.stage := rfl
@[simp] theorem flagDone_timer (s : State) : s.flagDone.timer = s.timer := rfl
@[simp] theorem flagDone_pix (s : State) : s.flagDone.pix = s.pix := rfl
@[simp] theorem flagDone_lum (s : State) : s.flagDone.lum = s.lum := rfl
@[simp] theorem flagDone_pk (s : State) : s.flagDone.pk = s.pk := rfl
@[simp] theorem flagDone_history (s : State) : s.flagDone.history = s.history := rfl
@[simp] theorem flagDone_turns (s : State) : s.flagDone.turns = s.turns := rfl
@[simp] theorem flagDone_hostData (s : State) : s.flagDone.hostData = s.hostData := rfl
@[simp] theorem flagDone_resets (s : State) : s.flagDone.resets = s.resets := rfl
@[simp] theorem flagDone_draws (s : State) : s.flagDone.draws = s.draws := rfl

/-! ### flagAborted -/

@[simp] theorem flagAborted_cfg (s : State) : s.flagAborted.cfg = s.cfg := rfl
@[simp] theorem flagAborted_status (s : State) : s.flagAborted.status = { s.status with busy := false } := rfl
@[simp] theorem flagAborted_errinfo (s : State) : s.flagAborted.errinfo = s.errinfo := rfl
@[simp] theorem flagAborted_job (s : State) : s.flagAborted.job = s.job := rfl
@[simp] theorem flagAborted_seq (s : State) : s.flagAborted.seq = s.seq := rfl
@[simp] theorem flagAborted_stage (s : State) : s.flagAborted.stage = s.stage := rfl
@[simp] theorem flagAborted_timer (s : State) : s.flagAborted.timer = s.timer := rfl
@[simp] theorem flagAborted_pix (s : State) : s.flagAborted.pix = s.pix := rfl
@[simp] theorem flagAborted_lum (s : State) : s.flagAborted.lum = s.lum := rfl
@[simp] theorem flagAborted_pk (s : State) : s.flagAborted.pk = s.pk := rfl
@[simp] theorem flagAborted_history (s : State) : s.flagAborted.history = s.history := rfl
@[simp] theorem flagAborted_turns (s : State) : s.flagAborted.turns = s.turns := rfl
@[simp] theorem flagAborted_hostData (s : State) : s.flagAborted.hostData = s.hostData := rfl
@[simp] theorem flagAborted_resets (s : State) : s.flagAborted.resets = s.resets := rfl
@[simp] theorem flagAborted_draws (s : State) : s.flagAborted.draws = s.draws := rfl

/-! ### flagRejected -/

@[simp] theorem flagRejected_cfg (s : State) : s.flagRejected.cfg = s.cfg := rfl
@[simp] theorem flagRejected_status (s : State) : s.flagRejected.status = { s.status with rej := true } := rfl
@[simp] theorem flagRejected_errinfo (s : State) : s.flagRejected.errinfo = s.errinfo := rfl
@[simp] theorem flagRejected_job (s : State) : s.flagRejected.job = s.job := rfl
@[simp] theorem flagRejected_seq (s : State) : s.flagRejected.seq = s.seq := rfl
@[simp] theorem flagRejected_stage (s : State) : s.flagRejected.stage = s.stage := rfl
@[simp] theorem flagRejected_timer (s : State) : s.flagRejected.timer = s.timer := rfl
@[simp] theorem flagRejected_pix (s : State) : s.flagRejected.pix = s.pix := rfl
@[simp] theorem flagRejected_lum (s : State) : s.flagRejected.lum = s.lum := rfl
@[simp] theorem flagRejected_pk (s : State) : s.flagRejected.pk = s.pk := rfl
@[simp] theorem flagRejected_history (s : State) : s.flagRejected.history = s.history := rfl
@[simp] theorem flagRejected_turns (s : State) : s.flagRejected.turns = s.turns := rfl
@[simp] theorem flagRejected_hostData (s : State) : s.flagRejected.hostData = s.hostData := rfl
@[simp] theorem flagRejected_resets (s : State) : s.flagRejected.resets = s.resets := rfl
@[simp] theorem flagRejected_draws (s : State) : s.flagRejected.draws = s.draws := rfl

/-! ### emitWrite -/

@[simp] theorem emitWrite_cfg (b : List Byte) (s : State) : (s.emitWrite b).cfg = s.cfg := rfl
@[simp] theorem emitWrite_status (b : List Byte) (s : State) : (s.emitWrite b).status = s.status := rfl
@[simp] theorem emitWrite_errinfo (b : List Byte) (s : State) : (s.emitWrite b).errinfo = s.errinfo := rfl
@[simp] theorem emitWrite_job (b : List Byte) (s : State) : (s.emitWrite b).job = s.job := rfl
@[simp] theorem emitWrite_seq (b : List Byte) (s : State) : (s.emitWrite b).seq = { s.seq with wait := .write } := rfl
@[simp] theorem emitWrite_stage (b : List Byte) (s : State) : (s.emitWrite b).stage = s.stage := rfl
@[simp] theorem emitWrite_timer (b : List Byte) (s : State) : (s.emitWrite b).timer = s.timer := rfl
@[simp] theorem emitWrite_pix (b : List Byte) (s : State) : (s.emitWrite b).pix = s.pix := rfl
@[simp] theorem emitWrite_lum (b : List Byte) (s : State) : (s.emitWrite b).lum = s.lum := rfl
@[simp] theorem emitWrite_pk (b : List Byte) (s : State) : (s.emitWrite b).pk = s.pk := rfl
@[simp] theorem emitWrite_history (b : List Byte) (s : State) :
    (s.emitWrite b).history = s.history ++ [.write s.seq.nwr b] := rfl
@[simp] theorem emitWrite_turns (b : List Byte) (s : State) : (s.emitWrite b).turns = s.turns := rfl
@[simp] theorem emitWrite_hostData (b : List Byte) (s : State) : (s.emitWrite b).hostData = s.hostData := rfl
@[simp] theorem emitWrite_resets (b : List Byte) (s : State) : (s.emitWrite b).resets = s.resets := rfl
@[simp] theorem emitWrite_draws (b : List Byte) (s : State) : (s.emitWrite b).draws = s.draws := rfl

/-! ### emitSleep -/

@[simp] theorem emitSleep_cfg (ms : Half) (k : Wait) (s : State) : (s.emitSleep ms k).cfg = s.cfg := rfl
@[simp] theorem emitSleep_status (ms : Half) (k : Wait) (s : State) : (s.emitSleep ms k).status = s.status := rfl
@[simp] theorem emitSleep_errinfo (ms : Half) (k : Wait) (s : State) : (s.emitSleep ms k).errinfo = s.errinfo := rfl
@[simp] theorem emitSleep_job (ms : Half) (k : Wait) (s : State) : (s.emitSleep ms k).job = s.job := rfl
@[simp] theorem emitSleep_seq (ms : Half) (k : Wait) (s : State) :
    (s.emitSleep ms k).seq = { s.seq with wait := k } := rfl
@[simp] theorem emitSleep_stage (ms : Half) (k : Wait) (s : State) : (s.emitSleep ms k).stage = s.stage := rfl
@[simp] theorem emitSleep_timer (ms : Half) (k : Wait) (s : State) : (s.emitSleep ms k).timer = some ms := rfl
@[simp] theorem emitSleep_pix (ms : Half) (k : Wait) (s : State) : (s.emitSleep ms k).pix = s.pix := rfl
@[simp] theorem emitSleep_lum (ms : Half) (k : Wait) (s : State) : (s.emitSleep ms k).lum = s.lum := rfl
@[simp] theorem emitSleep_pk (ms : Half) (k : Wait) (s : State) : (s.emitSleep ms k).pk = s.pk := rfl
@[simp] theorem emitSleep_history (ms : Half) (k : Wait) (s : State) :
    (s.emitSleep ms k).history = s.history ++ [.sleep ms] := rfl
@[simp] theorem emitSleep_turns (ms : Half) (k : Wait) (s : State) : (s.emitSleep ms k).turns = s.turns := rfl
@[simp] theorem emitSleep_hostData (ms : Half) (k : Wait) (s : State) : (s.emitSleep ms k).hostData = s.hostData := rfl
@[simp] theorem emitSleep_resets (ms : Half) (k : Wait) (s : State) : (s.emitSleep ms k).resets = s.resets := rfl
@[simp] theorem emitSleep_draws (ms : Half) (k : Wait) (s : State) : (s.emitSleep ms k).draws = s.draws := rfl

/-! ### sliceSent -/

@[simp] theorem sliceSent_cfg (s : State) : s.sliceSent.cfg = s.cfg := rfl
@[simp] theorem sliceSent_status (s : State) : s.sliceSent.status = s.status := rfl
@[simp] theorem sliceSent_errinfo (s : State) : s.sliceSent.errinfo = s.errinfo := rfl
@[simp] theorem sliceSent_job (s : State) : s.sliceSent.job = s.job := rfl
@[simp] theorem sliceSent_seq (s : State) :
    s.sliceSent.seq = { s.seq with off := s.seq.off + s.sliceLen s.cur.length, nwr := s.seq.nwr + 1, wait := .none } := rfl
@[simp] theorem sliceSent_stage (s : State) : s.sliceSent.stage = s.stage := rfl
@[simp] theorem sliceSent_timer (s : State) : s.sliceSent.timer = s.timer := rfl
@[simp] theorem sliceSent_pix (s : State) : s.sliceSent.pix = s.pix := rfl
@[simp] theorem sliceSent_lum (s : State) : s.sliceSent.lum = s.lum := rfl
@[simp] theorem sliceSent_pk (s : State) : s.sliceSent.pk = s.pk := rfl
@[simp] theorem sliceSent_history (s : State) : s.sliceSent.history = s.history := rfl
@[simp] theorem sliceSent_turns (s : State) : s.sliceSent.turns = s.turns := rfl
@[simp] theorem sliceSent_hostData (s : State) : s.sliceSent.hostData = s.hostData := rfl
@[simp] theorem sliceSent_resets (s : State) : s.sliceSent.resets = s.resets := rfl
@[simp] theorem sliceSent_draws (s : State) : s.sliceSent.draws = s.draws := rfl

/-! ### wake -/

@[simp] theorem wake_cfg (s : State) : s.wake.cfg = s.cfg := rfl
@[simp] theorem wake_status (s : State) : s.wake.status = s.status := rfl
@[simp] theorem wake_errinfo (s : State) : s.wake.errinfo = s.errinfo := rfl
@[simp] theorem wake_job (s : State) : s.wake.job = s.job := rfl
@[simp] theorem wake_seq (s : State) : s.wake.seq = { s.seq with wait := .none } := rfl
@[simp] theorem wake_stage (s : State) : s.wake.stage = s.stage := rfl
@[simp] theorem wake_timer (s : State) : s.wake.timer = none := rfl
@[simp] theorem wake_pix (s : State) : s.wake.pix = s.pix := rfl
@[simp] theorem wake_lum (s : State) : s.wake.lum = s.lum := rfl
@[simp] theorem wake_pk (s : State) : s.wake.pk = s.pk := rfl
@[simp] theorem wake_history (s : State) : s.wake.history = s.history := rfl
@[simp] theorem wake_turns (s : State) : s.wake.turns = s.turns := rfl
@[simp] theorem wake_hostData (s : State) : s.wake.hostData = s.hostData := rfl
@[simp] theorem wake_resets (s : State) : s.wake.resets = s.resets := rfl
@[simp] theorem wake_draws (s : State) : s.wake.draws = s.draws := rfl

/-! ### toFirstBand -/

@[simp] theorem toFirstBand_cfg (s : State) : s.toFirstBand.cfg = s.cfg := rfl
@[simp] theorem toFirstBand_status (s : State) : s.toFirstBand.status = s.status := rfl
@[simp] theorem toFirstBand_errinfo (s : State) : s.toFirstBand.errinfo = s.errinfo := rfl
@[simp] theorem toFirstBand_job (s : State) : s.toFirstBand.job = s.job := rfl
@[simp] theorem toFirstBand_seq (s : State) :
    s.toFirstBand.seq = { s.seq with phase := .hdr, y := 0, rows := s.rowsAt 0, off := 0 } := rfl
@[simp] theorem toFirstBand_stage (s : State) : s.toFirstBand.stage = s.stage := rfl
@[simp] theorem toFirstBand_timer (s : State) : s.toFirstBand.timer = s.timer := rfl
@[simp] theorem toFirstBand_pix (s : State) : s.toFirstBand.pix = s.pix := rfl
@[simp] theorem toFirstBand_lum (s : State) : s.toFirstBand.lum = s.lum := rfl
@[simp] theorem toFirstBand_pk (s : State) : s.toFirstBand.pk = s.pk := rfl
@[simp] theorem toFirstBand_history (s : State) : s.toFirstBand.history = s.history := rfl
@[simp] theorem toFirstBand_turns (s : State) : s.toFirstBand.turns = s.turns := rfl
@[simp] theorem toFirstBand_hostData (s : State) : s.toFirstBand.hostData = s.hostData := rfl
@[simp] theorem toFirstBand_resets (s : State) : s.toFirstBand.resets = s.resets := rfl
@[simp] theorem toFirstBand_draws (s : State) : s.toFirstBand.draws = s.draws := rfl

/-! ### toBody -/

@[simp] theorem toBody_cfg (s : State) : s.toBody.cfg = s.cfg := rfl
@[simp] theorem toBody_status (s : State) : s.toBody.status = s.status := rfl
@[simp] theorem toBody_errinfo (s : State) : s.toBody.errinfo = s.errinfo := rfl
@[simp] theorem toBody_job (s : State) : s.toBody.job = s.job := rfl
@[simp] theorem toBody_seq (s : State) : s.toBody.seq = { s.seq with phase := .body, off := 0 } := rfl
@[simp] theorem toBody_stage (s : State) : s.toBody.stage = s.stage := rfl
@[simp] theorem toBody_timer (s : State) : s.toBody.timer = s.timer := rfl
@[simp] theorem toBody_pix (s : State) : s.toBody.pix = s.pix := rfl
@[simp] theorem toBody_lum (s : State) : s.toBody.lum = s.lum := rfl
@[simp] theorem toBody_pk (s : State) : s.toBody.pk = s.pk := rfl
@[simp] theorem toBody_history (s : State) : s.toBody.history = s.history := rfl
@[simp] theorem toBody_turns (s : State) : s.toBody.turns = s.turns := rfl
@[simp] theorem toBody_hostData (s : State) : s.toBody.hostData = s.hostData := rfl
@[simp] theorem toBody_resets (s : State) : s.toBody.resets = s.resets := rfl
@[simp] theorem toBody_draws (s : State) : s.toBody.draws = s.draws := rfl

/-! ### toGap -/

@[simp] theorem toGap_cfg (s : State) : s.toGap.cfg = s.cfg := rfl
@[simp] theorem toGap_status (s : State) : s.toGap.status = s.status := rfl
@[simp] theorem toGap_errinfo (s : State) : s.toGap.errinfo = s.errinfo := rfl
@[simp] theorem toGap_job (s : State) : s.toGap.job = s.job := rfl
@[simp] theorem toGap_seq (s : State) : s.toGap.seq = { s.seq with phase := .gap } := rfl
@[simp] theorem toGap_stage (s : State) : s.toGap.stage = s.stage := rfl
@[simp] theorem toGap_timer (s : State) : s.toGap.timer = s.timer := rfl
@[simp] theorem toGap_pix (s : State) : s.toGap.pix = s.pix := rfl
@[simp] theorem toGap_lum (s : State) : s.toGap.lum = s.lum := rfl
@[simp] theorem toGap_pk (s : State) : s.toGap.pk = s.pk := rfl
@[simp] theorem toGap_history (s : State) : s.toGap.history = s.history := rfl
@[simp] theorem toGap_turns (s : State) : s.toGap.turns = s.turns := rfl
@[simp] theorem toGap_hostData (s : State) : s.toGap.hostData = s.hostData := rfl
@[simp] theorem toGap_resets (s : State) : s.toGap.resets = s.resets := rfl
@[simp] theorem toGap_draws (s : State) : s.toGap.draws = s.draws := rfl

/-! ### toNextBand -/

@[simp] theorem toNextBand_cfg (s : State) : s.toNextBand.cfg = s.cfg := rfl
@[simp] theorem toNextBand_status (s : State) : s.toNextBand.status = s.status := rfl
@[simp] theorem toNextBand_errinfo (s : State) : s.toNextBand.errinfo = s.errinfo := rfl
@[simp] theorem toNextBand_job (s : State) : s.toNextBand.job = s.job := rfl
@[simp] theorem toNextBand_seq (s : State) :
    s.toNextBand.seq = { s.seq with phase := .hdr, y := s.seq.y + s.bandRows, rows := min s.bandRows (s.height - (s.seq.y + s.bandRows)), off := 0 } := rfl
@[simp] theorem toNextBand_stage (s : State) : s.toNextBand.stage = s.stage := rfl
@[simp] theorem toNextBand_timer (s : State) : s.toNextBand.timer = s.timer := rfl
@[simp] theorem toNextBand_pix (s : State) : s.toNextBand.pix = s.pix := rfl
@[simp] theorem toNextBand_lum (s : State) : s.toNextBand.lum = s.lum := rfl
@[simp] theorem toNextBand_pk (s : State) : s.toNextBand.pk = s.pk := rfl
@[simp] theorem toNextBand_history (s : State) : s.toNextBand.history = s.history := rfl
@[simp] theorem toNextBand_turns (s : State) : s.toNextBand.turns = s.turns := rfl
@[simp] theorem toNextBand_hostData (s : State) : s.toNextBand.hostData = s.hostData := rfl
@[simp] theorem toNextBand_resets (s : State) : s.toNextBand.resets = s.resets := rfl
@[simp] theorem toNextBand_draws (s : State) : s.toNextBand.draws = s.draws := rfl

/-! ### toFeed -/

@[simp] theorem toFeed_cfg (s : State) : s.toFeed.cfg = s.cfg := rfl
@[simp] theorem toFeed_status (s : State) : s.toFeed.status = s.status := rfl
@[simp] theorem toFeed_errinfo (s : State) : s.toFeed.errinfo = s.errinfo := rfl
@[simp] theorem toFeed_job (s : State) : s.toFeed.job = s.job := rfl
@[simp] theorem toFeed_seq (s : State) : s.toFeed.seq = { s.seq with phase := .feed, off := 0 } := rfl
@[simp] theorem toFeed_stage (s : State) : s.toFeed.stage = s.stage := rfl
@[simp] theorem toFeed_timer (s : State) : s.toFeed.timer = s.timer := rfl
@[simp] theorem toFeed_pix (s : State) : s.toFeed.pix = s.pix := rfl
@[simp] theorem toFeed_lum (s : State) : s.toFeed.lum = s.lum := rfl
@[simp] theorem toFeed_pk (s : State) : s.toFeed.pk = s.pk := rfl
@[simp] theorem toFeed_history (s : State) : s.toFeed.history = s.history := rfl
@[simp] theorem toFeed_turns (s : State) : s.toFeed.turns = s.turns := rfl
@[simp] theorem toFeed_hostData (s : State) : s.toFeed.hostData = s.hostData := rfl
@[simp] theorem toFeed_resets (s : State) : s.toFeed.resets = s.resets := rfl
@[simp] theorem toFeed_draws (s : State) : s.toFeed.draws = s.draws := rfl

/-! ### finish -/

@[simp] theorem finish_cfg (s : State) : s.finish.cfg = s.cfg := rfl
@[simp] theorem finish_status (s : State) : s.finish.status = { s.status with busy := false, done := true } := rfl
@[simp] theorem finish_errinfo (s : State) : s.finish.errinfo = s.errinfo := rfl
@[simp] theorem finish_job (s : State) : s.finish.job = s.job := rfl
@[simp] theorem finish_seq (s : State) : s.finish.seq = { s.seq with phase := .idle } := rfl
@[simp] theorem finish_stage (s : State) : s.finish.stage = s.stage := rfl
@[simp] theorem finish_timer (s : State) : s.finish.timer = s.timer := rfl
@[simp] theorem finish_pix (s : State) : s.finish.pix = s.pix := rfl
@[simp] theorem finish_lum (s : State) : s.finish.lum = s.lum := rfl
@[simp] theorem finish_pk (s : State) : s.finish.pk = s.pk := rfl
@[simp] theorem finish_history (s : State) : s.finish.history = s.history := rfl
@[simp] theorem finish_turns (s : State) : s.finish.turns = s.turns := rfl
@[simp] theorem finish_hostData (s : State) : s.finish.hostData = s.hostData := rfl
@[simp] theorem finish_resets (s : State) : s.finish.resets = s.resets := rfl
@[simp] theorem finish_draws (s : State) : s.finish.draws = s.draws := rfl

/-! ### toStage -/

@[simp] theorem toStage_cfg (k : Stage) (s : State) : (s.toStage k).cfg = s.cfg := rfl
@[simp] theorem toStage_status (k : Stage) (s : State) : (s.toStage k).status = s.status := rfl
@[simp] theorem toStage_errinfo (k : Stage) (s : State) : (s.toStage k).errinfo = s.errinfo := rfl
@[simp] theorem toStage_job (k : Stage) (s : State) : (s.toStage k).job = s.job := rfl
@[simp] theorem toStage_seq (k : Stage) (s : State) : (s.toStage k).seq = s.seq := rfl
@[simp] theorem toStage_stage (k : Stage) (s : State) : (s.toStage k).stage = k := rfl
@[simp] theorem toStage_timer (k : Stage) (s : State) : (s.toStage k).timer = s.timer := rfl
@[simp] theorem toStage_pix (k : Stage) (s : State) : (s.toStage k).pix = s.pix := rfl
@[simp] theorem toStage_lum (k : Stage) (s : State) : (s.toStage k).lum = s.lum := rfl
@[simp] theorem toStage_pk (k : Stage) (s : State) : (s.toStage k).pk = s.pk := rfl
@[simp] theorem toStage_history (k : Stage) (s : State) : (s.toStage k).history = s.history := rfl
@[simp] theorem toStage_turns (k : Stage) (s : State) : (s.toStage k).turns = s.turns := rfl
@[simp] theorem toStage_hostData (k : Stage) (s : State) : (s.toStage k).hostData = s.hostData := rfl
@[simp] theorem toStage_resets (k : Stage) (s : State) : (s.toStage k).resets = s.resets := rfl
@[simp] theorem toStage_draws (k : Stage) (s : State) : (s.toStage k).draws = s.draws := rfl

/-! ### toTransmit -/

@[simp] theorem toTransmit_cfg (s : State) : s.toTransmit.cfg = s.cfg := rfl
@[simp] theorem toTransmit_status (s : State) : s.toTransmit.status = s.status := rfl
@[simp] theorem toTransmit_errinfo (s : State) : s.toTransmit.errinfo = s.errinfo := rfl
@[simp] theorem toTransmit_job (s : State) : s.toTransmit.job = s.job := rfl
@[simp] theorem toTransmit_seq (s : State) :
    s.toTransmit.seq = { phase := .reset, y := 0, rows := 0, off := 0, wait := .none, nwr := 0 } := rfl
@[simp] theorem toTransmit_stage (s : State) : s.toTransmit.stage = .luma := rfl
@[simp] theorem toTransmit_timer (s : State) : s.toTransmit.timer = s.timer := rfl
@[simp] theorem toTransmit_pix (s : State) : s.toTransmit.pix = s.pix := rfl
@[simp] theorem toTransmit_lum (s : State) : s.toTransmit.lum = s.lum := rfl
@[simp] theorem toTransmit_pk (s : State) : s.toTransmit.pk = s.pk := rfl
@[simp] theorem toTransmit_history (s : State) : s.toTransmit.history = s.history := rfl
@[simp] theorem toTransmit_turns (s : State) : s.toTransmit.turns = s.turns := rfl
@[simp] theorem toTransmit_hostData (s : State) : s.toTransmit.hostData = s.hostData := rfl
@[simp] theorem toTransmit_resets (s : State) : s.toTransmit.resets = s.resets := rfl
@[simp] theorem toTransmit_draws (s : State) : s.toTransmit.draws = s.draws := rfl

/-! ### latch -/

@[simp] theorem latch_cfg (s : State) : s.latch.cfg = s.cfg := rfl
@[simp] theorem latch_status (s : State) : s.latch.status = s.status := rfl
@[simp] theorem latch_errinfo (s : State) : s.latch.errinfo = s.errinfo := rfl
@[simp] theorem latch_job (s : State) : s.latch.job = s.cfg := rfl
@[simp] theorem latch_seq (s : State) : s.latch.seq = s.seq := rfl
@[simp] theorem latch_stage (s : State) : s.latch.stage = s.stage := rfl
@[simp] theorem latch_timer (s : State) : s.latch.timer = s.timer := rfl
@[simp] theorem latch_pix (s : State) : s.latch.pix = s.pix := rfl
@[simp] theorem latch_lum (s : State) : s.latch.lum = s.lum := rfl
@[simp] theorem latch_pk (s : State) : s.latch.pk = s.pk := rfl
@[simp] theorem latch_history (s : State) : s.latch.history = s.history := rfl
@[simp] theorem latch_turns (s : State) : s.latch.turns = s.turns := rfl
@[simp] theorem latch_hostData (s : State) : s.latch.hostData = s.hostData := rfl
@[simp] theorem latch_resets (s : State) : s.latch.resets = s.resets := rfl
@[simp] theorem latch_draws (s : State) : s.latch.draws = s.draws := rfl

/-! ### enterRender -/

@[simp] theorem enterRender_cfg (s : State) : s.enterRender.cfg = s.cfg := rfl
@[simp] theorem enterRender_status (s : State) : s.enterRender.status = { s.status with busy := true } := rfl
@[simp] theorem enterRender_errinfo (s : State) : s.enterRender.errinfo = s.errinfo := rfl
@[simp] theorem enterRender_job (s : State) : s.enterRender.job = s.job := rfl
@[simp] theorem enterRender_seq (s : State) : s.enterRender.seq = { s.seq with phase := .render } := rfl
@[simp] theorem enterRender_stage (s : State) : s.enterRender.stage = .luma := rfl
@[simp] theorem enterRender_timer (s : State) : s.enterRender.timer = s.timer := rfl
@[simp] theorem enterRender_pix (s : State) : s.enterRender.pix = s.pix := rfl
@[simp] theorem enterRender_lum (s : State) : s.enterRender.lum = s.lum := rfl
@[simp] theorem enterRender_pk (s : State) : s.enterRender.pk = s.pk := rfl
@[simp] theorem enterRender_history (s : State) : s.enterRender.history = s.history := rfl
@[simp] theorem enterRender_turns (s : State) : s.enterRender.turns = s.turns := rfl
@[simp] theorem enterRender_hostData (s : State) : s.enterRender.hostData = s.hostData := rfl
@[simp] theorem enterRender_resets (s : State) : s.enterRender.resets = s.resets := rfl
@[simp] theorem enterRender_draws (s : State) : s.enterRender.draws = s.draws := rfl

/-! ### answer -/

@[simp] theorem answer_cfg (d : HostData) (s : State) : (s.answer d).cfg = s.cfg := rfl
@[simp] theorem answer_status (d : HostData) (s : State) : (s.answer d).status = s.status := rfl
@[simp] theorem answer_errinfo (d : HostData) (s : State) : (s.answer d).errinfo = s.errinfo := rfl
@[simp] theorem answer_job (d : HostData) (s : State) : (s.answer d).job = s.job := rfl
@[simp] theorem answer_seq (d : HostData) (s : State) : (s.answer d).seq = s.seq := rfl
@[simp] theorem answer_stage (d : HostData) (s : State) : (s.answer d).stage = s.stage := rfl
@[simp] theorem answer_timer (d : HostData) (s : State) : (s.answer d).timer = s.timer := rfl
@[simp] theorem answer_pix (d : HostData) (s : State) : (s.answer d).pix = s.pix := rfl
@[simp] theorem answer_lum (d : HostData) (s : State) : (s.answer d).lum = s.lum := rfl
@[simp] theorem answer_pk (d : HostData) (s : State) : (s.answer d).pk = s.pk := rfl
@[simp] theorem answer_history (d : HostData) (s : State) : (s.answer d).history = s.history := rfl
@[simp] theorem answer_turns (d : HostData) (s : State) : (s.answer d).turns = s.turns := rfl
@[simp] theorem answer_hostData (d : HostData) (s : State) : (s.answer d).hostData = d := rfl
@[simp] theorem answer_resets (d : HostData) (s : State) : (s.answer d).resets = s.resets := rfl
@[simp] theorem answer_draws (d : HostData) (s : State) : (s.answer d).draws = s.draws := rfl

/-! ### answerFree -/

@[simp] theorem answerFree_cfg (d : Nat → HostData) (s : State) : (s.answerFree d).cfg = s.cfg := rfl
@[simp] theorem answerFree_status (d : Nat → HostData) (s : State) : (s.answerFree d).status = s.status := rfl
@[simp] theorem answerFree_errinfo (d : Nat → HostData) (s : State) : (s.answerFree d).errinfo = s.errinfo := rfl
@[simp] theorem answerFree_job (d : Nat → HostData) (s : State) : (s.answerFree d).job = s.job := rfl
@[simp] theorem answerFree_seq (d : Nat → HostData) (s : State) : (s.answerFree d).seq = s.seq := rfl
@[simp] theorem answerFree_stage (d : Nat → HostData) (s : State) : (s.answerFree d).stage = s.stage := rfl
@[simp] theorem answerFree_timer (d : Nat → HostData) (s : State) : (s.answerFree d).timer = s.timer := rfl
@[simp] theorem answerFree_pix (d : Nat → HostData) (s : State) : (s.answerFree d).pix = s.pix := rfl
@[simp] theorem answerFree_lum (d : Nat → HostData) (s : State) : (s.answerFree d).lum = s.lum := rfl
@[simp] theorem answerFree_pk (d : Nat → HostData) (s : State) : (s.answerFree d).pk = s.pk := rfl
@[simp] theorem answerFree_history (d : Nat → HostData) (s : State) : (s.answerFree d).history = s.history := rfl
@[simp] theorem answerFree_turns (d : Nat → HostData) (s : State) : (s.answerFree d).turns = s.turns := rfl
@[simp] theorem answerFree_hostData (d : Nat → HostData) (s : State) : (s.answerFree d).hostData = d s.draws := rfl
@[simp] theorem answerFree_resets (d : Nat → HostData) (s : State) : (s.answerFree d).resets = s.resets := rfl
@[simp] theorem answerFree_draws (d : Nat → HostData) (s : State) : (s.answerFree d).draws = s.draws + 1 := rfl

/-! ### hardwareReset -/

@[simp] theorem hardwareReset_cfg (s : State) : s.hardwareReset.cfg = Cfg.reset := rfl
@[simp] theorem hardwareReset_status (s : State) : s.hardwareReset.status = Status.reset := rfl
@[simp] theorem hardwareReset_errinfo (s : State) : s.hardwareReset.errinfo = 0#32 := rfl
@[simp] theorem hardwareReset_job (s : State) : s.hardwareReset.job = Cfg.reset := rfl
@[simp] theorem hardwareReset_seq (s : State) : s.hardwareReset.seq = Seq.reset := rfl
@[simp] theorem hardwareReset_stage (s : State) : s.hardwareReset.stage = .luma := rfl
@[simp] theorem hardwareReset_timer (s : State) : s.hardwareReset.timer = none := rfl
@[simp] theorem hardwareReset_pix (s : State) : s.hardwareReset.pix = [] := rfl
@[simp] theorem hardwareReset_lum (s : State) : s.hardwareReset.lum = [] := rfl
@[simp] theorem hardwareReset_pk (s : State) : s.hardwareReset.pk = [] := rfl
@[simp] theorem hardwareReset_history (s : State) : s.hardwareReset.history = s.history := rfl
@[simp] theorem hardwareReset_turns (s : State) : s.hardwareReset.turns = s.turns := rfl
@[simp] theorem hardwareReset_hostData (s : State) : s.hardwareReset.hostData = s.hostData := rfl
@[simp] theorem hardwareReset_resets (s : State) : s.hardwareReset.resets = s.resets + 1 := rfl
@[simp] theorem hardwareReset_draws (s : State) : s.hardwareReset.draws = s.draws := rfl

/-! ### raise_input -/

@[simp] theorem raise_input_cfg (c : BitVec 32) (s : State) : (s.raise (.input c)).cfg = s.cfg := rfl
@[simp] theorem raise_input_status (c : BitVec 32) (s : State) :
    (s.raise (.input c)).status = { s.status with err := true, errcode := 1#2 } := rfl
@[simp] theorem raise_input_errinfo (c : BitVec 32) (s : State) : (s.raise (.input c)).errinfo = c := rfl
@[simp] theorem raise_input_job (c : BitVec 32) (s : State) : (s.raise (.input c)).job = s.job := rfl
@[simp] theorem raise_input_seq (c : BitVec 32) (s : State) : (s.raise (.input c)).seq = s.seq := rfl
@[simp] theorem raise_input_stage (c : BitVec 32) (s : State) : (s.raise (.input c)).stage = s.stage := rfl
@[simp] theorem raise_input_timer (c : BitVec 32) (s : State) : (s.raise (.input c)).timer = s.timer := rfl
@[simp] theorem raise_input_pix (c : BitVec 32) (s : State) : (s.raise (.input c)).pix = s.pix := rfl
@[simp] theorem raise_input_lum (c : BitVec 32) (s : State) : (s.raise (.input c)).lum = s.lum := rfl
@[simp] theorem raise_input_pk (c : BitVec 32) (s : State) : (s.raise (.input c)).pk = s.pk := rfl
@[simp] theorem raise_input_history (c : BitVec 32) (s : State) : (s.raise (.input c)).history = s.history := rfl
@[simp] theorem raise_input_turns (c : BitVec 32) (s : State) : (s.raise (.input c)).turns = s.turns := rfl
@[simp] theorem raise_input_hostData (c : BitVec 32) (s : State) : (s.raise (.input c)).hostData = s.hostData := rfl
@[simp] theorem raise_input_resets (c : BitVec 32) (s : State) : (s.raise (.input c)).resets = s.resets := rfl
@[simp] theorem raise_input_draws (c : BitVec 32) (s : State) : (s.raise (.input c)).draws = s.draws := rfl

/-! ### raise_transport -/

@[simp] theorem raise_transport_cfg (s : State) : (s.raise .transport).cfg = s.cfg := rfl
@[simp] theorem raise_transport_status (s : State) :
    (s.raise .transport).status = { s.status with err := true, errcode := 2#2, busy := false } := rfl
@[simp] theorem raise_transport_errinfo (s : State) : (s.raise .transport).errinfo = BitVec.ofNat 32 s.seq.nwr := rfl
@[simp] theorem raise_transport_job (s : State) : (s.raise .transport).job = s.job := rfl
@[simp] theorem raise_transport_seq (s : State) :
    (s.raise .transport).seq = { s.seq with phase := .idle, wait := .none } := rfl
@[simp] theorem raise_transport_stage (s : State) : (s.raise .transport).stage = s.stage := rfl
@[simp] theorem raise_transport_timer (s : State) : (s.raise .transport).timer = s.timer := rfl
@[simp] theorem raise_transport_pix (s : State) : (s.raise .transport).pix = s.pix := rfl
@[simp] theorem raise_transport_lum (s : State) : (s.raise .transport).lum = s.lum := rfl
@[simp] theorem raise_transport_pk (s : State) : (s.raise .transport).pk = s.pk := rfl
@[simp] theorem raise_transport_history (s : State) :
    (s.raise .transport).history = s.history ++ [.failed s.seq.nwr] := rfl
@[simp] theorem raise_transport_turns (s : State) : (s.raise .transport).turns = s.turns := rfl
@[simp] theorem raise_transport_hostData (s : State) : (s.raise .transport).hostData = s.hostData := rfl
@[simp] theorem raise_transport_resets (s : State) : (s.raise .transport).resets = s.resets := rfl
@[simp] theorem raise_transport_draws (s : State) : (s.raise .transport).draws = s.draws := rfl

/-! ### raise_busyReject -/

@[simp] theorem raise_busyReject_cfg (s : State) : (s.raise .busyReject).cfg = s.cfg := rfl
@[simp] theorem raise_busyReject_status (s : State) :
    (s.raise .busyReject).status = { s.status with rej := true } := rfl
@[simp] theorem raise_busyReject_errinfo (s : State) : (s.raise .busyReject).errinfo = s.errinfo := rfl
@[simp] theorem raise_busyReject_job (s : State) : (s.raise .busyReject).job = s.job := rfl
@[simp] theorem raise_busyReject_seq (s : State) : (s.raise .busyReject).seq = s.seq := rfl
@[simp] theorem raise_busyReject_stage (s : State) : (s.raise .busyReject).stage = s.stage := rfl
@[simp] theorem raise_busyReject_timer (s : State) : (s.raise .busyReject).timer = s.timer := rfl
@[simp] theorem raise_busyReject_pix (s : State) : (s.raise .busyReject).pix = s.pix := rfl
@[simp] theorem raise_busyReject_lum (s : State) : (s.raise .busyReject).lum = s.lum := rfl
@[simp] theorem raise_busyReject_pk (s : State) : (s.raise .busyReject).pk = s.pk := rfl
@[simp] theorem raise_busyReject_history (s : State) : (s.raise .busyReject).history = s.history := rfl
@[simp] theorem raise_busyReject_turns (s : State) : (s.raise .busyReject).turns = s.turns := rfl
@[simp] theorem raise_busyReject_hostData (s : State) : (s.raise .busyReject).hostData = s.hostData := rfl
@[simp] theorem raise_busyReject_resets (s : State) : (s.raise .busyReject).resets = s.resets := rfl
@[simp] theorem raise_busyReject_draws (s : State) : (s.raise .busyReject).draws = s.draws := rfl

end Sys2Proof.Machine
end

