-- ==== Sys2Proof/Laws/Ops.lean ====
section
/-! SUPPORT. What each shared operation answers, said once, so that no later proof unfolds it. -/

namespace Sys2Proof.Machine

open Sys2Proof

/-! ### Sending -/

/-- *issue* hands over at most CHUNKSIZE bytes from OFF as write NWR, and SEQ waits for it (R166). -/
theorem issue_eq (buf : List Byte) (s : State) :
    s.issue buf = { s with
      history := s.history ++ [.write s.seq.nwr ((buf.drop s.seq.off).take s.chunkSize)]
      seq := { s.seq with wait := .write } } := by
  unfold State.issue
  rw [byteRange_slice]
  rfl

/-- One pass of CHUNK with nothing outstanding and bytes left is an *issue* (R160). -/
theorem chunk_eq_issue {s : State} {buf : List Byte} (hw : s.seq.wait = .none) (hl : s.seq.off < buf.length) :
    s.chunk buf = s.issue buf := by
  rw [State.chunk, if_pos hw, State.chunkPass, if_pos hl]

/-- At the start of its phase a TX operation is an *issue* of its buffer (R140 to R145). -/
theorem transmit_eq_issue {s : State} {phase : Phase} {buf : List Byte} (hw : s.seq.wait = .none) (hp : s.seq.phase = phase)
    (h0 : s.seq.off = 0) (hl : 0 < buf.length) : s.transmit phase buf = s.issue buf := by
  have e : ({ s with seq := { s.seq with phase := phase, off := 0 } } : State) = s := by
    subst hp
    rw [← h0]
  rw [State.transmit, if_pos hw]
  simp only [e]
  rw [State.chunkPass, if_pos (by omega)]

/-- A band's body has `rowBytes * rows` bytes (R56). -/
@[simp] theorem bandBytes_length (s : State) (y rows : Nat) : (s.bandBytes y rows).length = s.rowBytes * rows := by
  simp [State.bandBytes]

theorem rowBytes_le (s : State) : s.rowBytes ≤ 8192 := by
  have := s.job.w.isLt
  unfold State.rowBytes rowBytesOf State.width
  omega

theorem height_le (s : State) : s.height ≤ 65535 := by
  have := s.job.h.isLt
  unfold State.height
  omega

/-- A band of the partition is not empty and ends inside the picture (R148). -/
theorem band_inside {b h : Nat} (hh : 1 ≤ h) {band : Nat × Nat} (hm : band ∈ bandsOf b h) :
    1 ≤ band.2 ∧ band.1 + band.2 ≤ h := by
  rcases Nat.eq_zero_or_pos b with hb | hb
  · subst hb
    simp only [bandsOf_plain, List.mem_singleton] at hm
    subst hm
    exact ⟨hh, by simp⟩
  · obtain ⟨i, hi, rfl⟩ := (mem_bandsOf hb).1 hm
    exact ⟨by simp only; omega, by simp only; omega⟩

/-! ### START -/

/-- Which fields the fallback changes (R183). -/
theorem resolveFallback_eq (s : State) :
    s.resolveFallback = { s with
      job := { s.job with qmode := if 5 ≤ s.job.qmode.toNat then 1#3 else s.job.qmode }
      status := { s.status with fallback := s.status.fallback || decide (5 ≤ s.job.qmode.toNat) } } := by
  unfold State.resolveFallback
  by_cases h : 5 ≤ s.job.qmode.toNat
  · simp [h, State.flagFallback]
  · simp [h]

/-- The checks pass exactly for a job that can run (R182). -/
theorem checkJob_eq_none {maxPix : Nat} {j : Cfg} :
    checkJob maxPix j = none ↔
      1 ≤ j.w.toNat ∧ 1 ≤ j.h.toNat ∧ j.w.toNat * j.h.toNat ≤ maxPix ∧ 1 ≤ j.chunkSize.toNat := by
  unfold checkJob
  split
  · simp_all
  · split
    · simp_all
    · split
      · simp
        omega
      · split
        · simp_all
        · simp
          omega

/-! ### The host -/

/-- A host access other than START touches CFG, PIX and what the host reads back, and keeps PIX canonical. -/
theorem hostAccess_next {maxPix : Nat} {a : HostAction} {s t : State} (h : hostAccess maxPix a s = .next t) :
    t = { s with cfg := t.cfg, pix := t.pix, hostData := t.hostData, draws := t.draws } ∧
      (Mem.wf s.pix = true → Mem.wf t.pix = true) := by
  cases a <;> simp only [hostAccess, hostWritePix, hostReadPix, hostReadPk, hostReadLum] at h <;>
    (repeat' split at h) <;> cases h <;>
    first
    | exact ⟨rfl, id⟩
    | exact ⟨rfl, fun hw => wf_memSet _ _ _ hw⟩

end Sys2Proof.Machine
end

