-- ==== Sys2Proof/Laws/PerInstr.lean ====
section
/-! SUPPORT. One fact about the encoding of every instruction: how many bytes it has, by its format (R60 to R62, R66, R20). -/

namespace Sys2Proof.Laws.EncodedLength

open Sys2Proof

/-- The number of bytes of a format; none for the formats without an encoding. -/
def bytesOf : Format → Option Nat
  | .wire2 => some 2
  | .wire8 => some 8
  | .qmode3 => some 1
  | .ctrl1 => some 1
  | .raw => none
  | .unencoded => none

/-- An instruction has an encoding exactly when its format has one, and of that length. -/
def Statement (i : Instr) : Prop := (encode i).map List.length = bytesOf i.format

theorem txReset : Statement .txReset := rfl

theorem txHdr (rowBytes rows : Half) : Statement (.txHdr rowBytes rows) := rfl

theorem txFeed : Statement .txFeed := rfl

theorem txBody (y rows : Nat) : Statement (.txBody y rows) := rfl

theorem qThresh : Statement .qThresh := rfl

theorem qFs : Statement .qFs := rfl

theorem qAtk : Statement .qAtk := rfl

theorem qOrd4 : Statement .qOrd4 := rfl

theorem qOrd8 : Statement .qOrd8 := rfl

theorem qReserved5 : Statement .qReserved5 := rfl

theorem qReserved6 : Statement .qReserved6 := rfl

theorem qReserved7 : Statement .qReserved7 := rfl

theorem start : Statement .start := rfl

theorem luma : Statement .luma := rfl

theorem tone : Statement .tone := rfl

theorem pack : Statement .pack := rfl

theorem chunk (buf : List Byte) : Statement (.chunk buf) := rfl

theorem sleep (p : Pause) : Statement (.sleep p) := rfl

end Sys2Proof.Laws.EncodedLength
end

