-- ==== Sys2Proof/Laws/Stages.lean ====
section
/-! SUPPORT. What each stage writes: the elements of the grid, and nothing outside it (R48); and that every stage keeps the
canonical form of the memory it writes. -/

namespace Sys2Proof.Machine

open Sys2Proof

/-! ### LUMA, TONE and the order-independent modes -/

/-- LUMA writes every pixel of the grid (R80). -/
theorem lumaGrid_read (p : Params) (free : Nat → LumNum) (pix : Nat → Pixel) (w h : Nat) (lum : Mem LumNum) {x y : Nat}
    (hx : x < w) (hy : y < h) :
    memRead free (lumaGrid p pix w h lum) (pixelAddr w x y)
      = ((p.lumaFn (pix (pixelAddr w x y)).r (pix (pixelAddr w x y)).g (pix (pixelAddr w x y)).b).toNat : LumNum) :=
  (forGrid_read free
    (fun x y _ => ((p.lumaFn (pix (pixelAddr w x y)).r (pix (pixelAddr w x y)).g (pix (pixelAddr w x y)).b).toNat : LumNum))
    w h lum).1 x y hx hy

/-- LUMA writes nothing outside the grid (R48). -/
theorem lumaGrid_outside (p : Params) (free : Nat → LumNum) (pix : Nat → Pixel) (w h : Nat) (lum : Mem LumNum) {a : Nat}
    (ha : w * h ≤ a) : memRead free (lumaGrid p pix w h lum) a = memRead free lum a :=
  (forGrid_read free
    (fun x y _ => ((p.lumaFn (pix (pixelAddr w x y)).r (pix (pixelAddr w x y)).g (pix (pixelAddr w x y)).b).toNat : LumNum))
    w h lum).2 a ha

/-- A map over the grid gives each pixel its own image. -/
theorem mapGrid_read (free : Nat → LumNum) (w h : Nat) (f : Nat → Nat → LumNum → LumNum) (lum : Mem LumNum) {x y : Nat}
    (hx : x < w) (hy : y < h) :
    memRead free (mapGrid free w h f lum) (pixelAddr w x y) = f x y (memRead free lum (pixelAddr w x y)) :=
  (forGrid_read free f w h lum).1 x y hx hy

/-- A map over the grid writes nothing outside it (R48). -/
theorem mapGrid_outside (free : Nat → LumNum) (w h : Nat) (f : Nat → Nat → LumNum → LumNum) (lum : Mem LumNum) {a : Nat}
    (ha : w * h ≤ a) : memRead free (mapGrid free w h f lum) a = memRead free lum a :=
  (forGrid_read free f w h lum).2 a ha

theorem wf_lumaGrid (p : Params) (pix : Nat → Pixel) (w h : Nat) (lum : Mem LumNum) (hw : Mem.wf lum = true) :
    Mem.wf (lumaGrid p pix w h lum) = true :=
  forGrid_keeps (fun m => Mem.wf m = true) _ w h lum hw fun _ _ _ _ _ ht => wf_memSet _ _ _ ht

theorem wf_mapGrid (free : Nat → LumNum) (w h : Nat) (f : Nat → Nat → LumNum → LumNum) (lum : Mem LumNum)
    (hw : Mem.wf lum = true) : Mem.wf (mapGrid free w h f lum) = true :=
  forGrid_keeps (fun m => Mem.wf m = true) _ w h lum hw fun _ _ _ _ _ ht => wf_memSet _ _ _ ht

theorem wf_toneGrid (p : Params) (free : Nat → LumNum) (gamma : Half) (w h : Nat) (lum : Mem LumNum)
    (hw : Mem.wf lum = true) : Mem.wf (toneGrid p free gamma w h lum) = true := by
  unfold toneGrid
  split
  · exact hw
  · exact wf_mapGrid _ _ _ _ _ hw

/-! ### Error diffusion -/

/-- The bounds test of R48, on the coordinates. -/
theorem inGrid_iff {w h : Nat} {x y : Int} : inGrid w h x y = true ↔ 0 ≤ x ∧ x < w ∧ 0 ≤ y ∧ y < h := by
  simp [inGrid, and_assoc]

theorem wf_addShare (p : Params) (free : Nat → LumNum) (w h : Nat) (x y : Int) (d : LumNum) (m : Mem LumNum)
    (hw : Mem.wf m = true) : Mem.wf (addShare p free w h x y d m) = true := by
  unfold addShare
  split
  · exact wf_memSet _ _ _ hw
  · exact hw

/-- `add` touches no element outside the grid (R48, R105). -/
theorem addShare_outside (p : Params) (free : Nat → LumNum) (w h : Nat) (x y : Int) (d : LumNum) (m : Mem LumNum) {a : Nat}
    (ha : w * h ≤ a) : memRead free (addShare p free w h x y d m) a = memRead free m a := by
  unfold addShare
  split
  · rename_i hin
    obtain ⟨hx0, hx1, hy0, hy1⟩ := inGrid_iff.1 hin
    have := pixelAddr_lt (w := w) (h := h) (x := x.toNat) (y := y.toNat) (by omega) (by omega)
    exact memRead_memSet_other _ _ _ (by omega)
  · rfl

/-- A run of `add`s keeps whatever each of them keeps. -/
theorem foldl_addShare_keeps (P : Mem LumNum → Prop) (p : Params) (free : Nat → LumNum) (w h : Nat) (x y : Int)
    (l : List Share) (m : Mem LumNum) (hm : P m)
    (hadd : ∀ (t : Share) m, P m → P (addShare p free w h (x + t.dx) (y + t.dy) t.amount m)) :
    P (l.foldl (fun m t => addShare p free w h (x + t.dx) (y + t.dy) t.amount m) m) := by
  induction l generalizing m with
  | nil => exact hm
  | cons t l ih => exact ih _ (hadd t m hm)

theorem wf_visit (p : Params) (free : Nat → LumNum) (shares : LumNum → List Share) (w h x y : Nat) (m : Mem LumNum)
    (hw : Mem.wf m = true) : Mem.wf (visit p free shares w h x y m) = true :=
  foldl_addShare_keeps (fun m => Mem.wf m = true) p free w h x y _ _ (wf_memSet _ _ _ hw)
    fun _ _ hm => wf_addShare _ _ _ _ _ _ _ _ hm

/-- A visit touches no element outside the grid (R48). -/
theorem visit_outside (p : Params) (free : Nat → LumNum) (shares : LumNum → List Share) {w h x y : Nat} (m : Mem LumNum)
    {a : Nat} (hx : x < w) (hy : y < h) (ha : w * h ≤ a) :
    memRead free (visit p free shares w h x y m) a = memRead free m a := by
  refine foldl_addShare_keeps (fun m' => memRead free m' a = memRead free m a) p free w h x y _ _ ?_ ?_
  · have := pixelAddr_lt hx hy
    exact memRead_memSet_other _ _ _ (by omega)
  · intro t m' hm
    rw [addShare_outside p free w h _ _ _ _ ha, hm]

/-- What every visit of the grid keeps, Q.FS keeps. -/
theorem fsGrid_keeps (P : Mem LumNum → Prop) (p : Params) (free : Nat → LumNum) (w h : Nat) (lum : Mem LumNum) (h0 : P lum)
    (hv : ∀ d x y m, x < w → y < h → P m → P (visit p free (fsShares p d) w h x y m)) : P (fsGrid p free w h lum) := by
  refine forUp_keeps P _ h lum h0 fun y hy m hm => ?_
  split
  · exact forUp_keeps P _ w m hm fun x hx t ht => hv 1 x y t hx hy ht
  · exact forDown_keeps P _ w m hm fun x hx t ht => hv (-1) x y t hx hy ht

/-- What every visit of the grid keeps, Q.ATK keeps. -/
theorem atkGrid_keeps (P : Mem LumNum → Prop) (p : Params) (free : Nat → LumNum) (w h : Nat) (lum : Mem LumNum) (h0 : P lum)
    (hv : ∀ x y m, x < w → y < h → P m → P (visit p free (atkShares p) w h x y m)) : P (atkGrid p free w h lum) :=
  forGrid_keeps P _ w h lum h0 fun y hy x hx m hm => hv x y m hx hy hm

theorem wf_fsGrid (p : Params) (free : Nat → LumNum) (w h : Nat) (lum : Mem LumNum) (hw : Mem.wf lum = true) :
    Mem.wf (fsGrid p free w h lum) = true :=
  fsGrid_keeps (fun m => Mem.wf m = true) p free w h lum hw fun _ _ _ _ _ _ hm => wf_visit _ _ _ _ _ _ _ _ hm

theorem wf_atkGrid (p : Params) (free : Nat → LumNum) (w h : Nat) (lum : Mem LumNum) (hw : Mem.wf lum = true) :
    Mem.wf (atkGrid p free w h lum) = true :=
  atkGrid_keeps (fun m => Mem.wf m = true) p free w h lum hw fun _ _ _ _ _ hm => wf_visit _ _ _ _ _ _ _ _ hm

/-- Q.FS touches no element outside the grid (R48). -/
theorem fsGrid_outside (p : Params) (free : Nat → LumNum) (w h : Nat) (lum : Mem LumNum) {a : Nat} (ha : w * h ≤ a) :
    memRead free (fsGrid p free w h lum) a = memRead free lum a :=
  fsGrid_keeps (fun m => memRead free m a = memRead free lum a) p free w h lum rfl
    fun _ _ _ m hx hy hm => by rw [visit_outside p free _ m hx hy ha, hm]

/-- Q.ATK touches no element outside the grid (R48). -/
theorem atkGrid_outside (p : Params) (free : Nat → LumNum) (w h : Nat) (lum : Mem LumNum) {a : Nat} (ha : w * h ≤ a) :
    memRead free (atkGrid p free w h lum) a = memRead free lum a :=
  atkGrid_keeps (fun m => memRead free m a = memRead free lum a) p free w h lum rfl
    fun _ _ m hx hy hm => by rw [visit_outside p free _ m hx hy ha, hm]

/-! ### PACK -/

/-- PACK as a loop over the grid of bytes. -/
theorem packGrid_eq (lum : Nat → LumNum) (w h : Nat) (pk : List Host.Cell) :
    packGrid lum w h pk
      = forGrid (rowBytesOf w) h
          (fun y xb m => memSet m (pixelAddr (rowBytesOf w) xb y) (packByte lum w y xb)) pk := rfl

/-- PACK writes every byte of every row (R130). -/
theorem packGrid_read (free : Nat → Byte) (lum : Nat → LumNum) (w h : Nat) (pk : List Host.Cell) {y xb : Nat}
    (hx : xb < rowBytesOf w) (hy : y < h) :
    memRead free (packGrid lum w h pk) (packAddr w y xb) = packByte lum w y xb :=
  (forGrid_read free (fun xb y _ => packByte lum w y xb) (rowBytesOf w) h pk).1 xb y hx hy

/-- PACK writes nothing beyond the bitmap (R48). -/
theorem packGrid_outside (free : Nat → Byte) (lum : Nat → LumNum) (w h : Nat) (pk : List Host.Cell) {a : Nat}
    (ha : rowBytesOf w * h ≤ a) : memRead free (packGrid lum w h pk) a = memRead free pk a :=
  (forGrid_read free (fun xb y _ => packByte lum w y xb) (rowBytesOf w) h pk).2 a ha

theorem wf_packGrid (lum : Nat → LumNum) (w h : Nat) (pk : List Host.Cell) (hw : Mem.wf pk = true) :
    Mem.wf (packGrid lum w h pk) = true :=
  forUp_keeps (fun m => Mem.wf m = true) _ h pk hw fun _ _ m hm =>
    forUp_keeps (fun m => Mem.wf m = true) _ _ m hm fun _ _ _ ht => wf_memSet _ _ _ ht

end Sys2Proof.Machine
end

