-- ==== Sys2Proof/Laws/Step.lean ====
section
/-! SUPPORT. What a step can do, said once: `Moves` lists the atomic moves of the machine with their enabling conditions, and a
step that answers a next state is one of them. Invariants and whole-machine rules are proved by cases on it. -/

namespace Sys2Proof.Machine

open Sys2Proof

theorem step_of_run {s s' : State} {i : Instr} (h : fetch s = .run i s') : step s = exec i s' := by
  rw [step, h, Fetched.outcome]

theorem step_of_quiet {s : State} {o : Host.Outcome State Fault Refusal} (h : fetch s = .quiet o) : step s = o := by
  rw [step, h, Fetched.outcome]

theorem popTurn_of_nil {s : State} (h : s.turns = []) : s.popTurn = s := by
  cases s
  cases h
  rfl

/-- The atomic moves: agent `tn` moves from `u` to the state given. -/
inductive Moves : Turn → State → State → Prop where
  /-- Nothing happens. -/
  | stay (tn : Turn) (u : State) : Moves tn u u
  | luma (u : State) (hp : u.seq.phase = .render) (hs : u.stage = .luma) : Moves .seq u (lumaStage Params.adopted u)
  | tone (u : State) (hp : u.seq.phase = .render) (hs : u.stage = .tone) : Moves .seq u (toneStage Params.adopted u)
  | thresh (u : State) (hp : u.seq.phase = .render) (hs : u.stage = .quant) (hq : u.job.qmode = 0#3) :
      Moves .seq u (threshStage u)
  | fs (u : State) (hp : u.seq.phase = .render) (hs : u.stage = .quant) (hq : u.job.qmode = 1#3) :
      Moves .seq u (fsStage Params.adopted u)
  | atk (u : State) (hp : u.seq.phase = .render) (hs : u.stage = .quant) (hq : u.job.qmode = 2#3) :
      Moves .seq u (atkStage Params.adopted u)
  | ord4 (u : State) (hp : u.seq.phase = .render) (hs : u.stage = .quant) (hq : u.job.qmode = 3#3) :
      Moves .seq u (ord4Stage Params.adopted u)
  | ord8 (u : State) (hp : u.seq.phase = .render) (hs : u.stage = .quant) (hq : u.job.qmode = 4#3) :
      Moves .seq u (ord8Stage Params.adopted u)
  | reserved (u : State) (hp : u.seq.phase = .render) (hs : u.stage = .quant) (hq : 5 ≤ u.job.qmode.toNat) :
      Moves .seq u (reservedStage Params.adopted u)
  | pack (u : State) (hp : u.seq.phase = .render) (hs : u.stage = .pack) : Moves .seq u (packStage u)
  /-- *issue* (R166). -/
  | issueReset (u : State) (hp : u.seq.phase = .reset) (hw : u.seq.wait = .none) (h0 : u.seq.off = 0) :
      Moves .seq u (u.transmit .reset resetBytes)
  | issueHdr (u : State) (hp : u.seq.phase = .hdr) (hw : u.seq.wait = .none) (h0 : u.seq.off = 0) :
      Moves .seq u (u.transmit .hdr
        (headerBytes (BitVec.ofNat 16 u.rowBytes).toNat (BitVec.ofNat 16 u.seq.rows).toNat))
  | issueBody (u : State) (hp : u.seq.phase = .body) (hw : u.seq.wait = .none) (h0 : u.seq.off = 0)
      (hl : 0 < (u.bandBytes u.seq.y u.seq.rows).length) :
      Moves .seq u (u.transmit .body (u.bandBytes u.seq.y u.seq.rows))
  | issueFeed (u : State) (hp : u.seq.phase = .feed) (hw : u.seq.wait = .none) (h0 : u.seq.off = 0) :
      Moves .seq u (u.transmit .feed feedBytes)
  | issueMore (u : State) (hw : u.seq.wait = .none) (h0 : u.seq.off ≠ 0) (hl : u.seq.off < u.cur.length) :
      Moves .seq u (u.chunk u.cur)
  /-- *advance* (R171). -/
  | advReset (u : State) (hp : u.seq.phase = .reset) (hw : u.seq.wait = .none) (hl : u.seq.off = u.cur.length) :
      Moves .seq u u.toFirstBand
  | advHdr (u : State) (hp : u.seq.phase = .hdr) (hw : u.seq.wait = .none) (hl : u.seq.off = u.cur.length) :
      Moves .seq u u.toBody
  | advBodyPlain (u : State) (hp : u.seq.phase = .body) (hw : u.seq.wait = .none) (hl : u.seq.off = u.cur.length)
      (hb : ¬ 0 < u.bandRows) : Moves .seq u u.toFeed
  | advBodyBanded (u : State) (hp : u.seq.phase = .body) (hw : u.seq.wait = .none) (hl : u.seq.off = u.cur.length)
      (hb : 0 < u.bandRows) : Moves .seq u u.toGap.pauseBand
  | advGapNext (u : State) (hp : u.seq.phase = .gap) (hw : u.seq.wait = .none) (hy : u.seq.y + u.bandRows < u.height) :
      Moves .seq u u.toNextBand
  | advGapLast (u : State) (hp : u.seq.phase = .gap) (hw : u.seq.wait = .none) (hy : ¬ u.seq.y + u.bandRows < u.height) :
      Moves .seq u u.toFeed
  | advFeed (u : State) (hp : u.seq.phase = .feed) (hw : u.seq.wait = .none) (hl : u.seq.off = u.cur.length) :
      Moves .seq u u.finish
  /-- *complete-ok* (R167), *complete-fail* (R168), *wake* (R169). -/
  | completeOk (u : State) (hw : u.seq.wait = .write) : Moves (.link .ok) u u.sliceSent.pauseChunk
  | completeFail (u : State) (hw : u.seq.wait = .write) : Moves (.link .fail) u (u.raise .transport)
  | wake (u : State) (hw : u.seq.wait = .csleep ∨ u.seq.wait = .bsleep) : Moves .timer u u.wake
  /-- START (R180). -/
  | start (u : State) : Moves (.host (.writeCtrl 1#1)) u (u.startJob Params.adopted.maxPix)
  /-- Another host action. -/
  | access (a : HostAction) (u t : State) (ha : a ≠ .writeCtrl 1#1)
      (h : hostAccess Params.adopted.maxPix a u = .next t) : Moves (.host a) u t
  | reset (u : State) : Moves .reset u u.hardwareReset

/-- A mode code below 5 is one of the five modes. -/
theorem qmode_cases (c : BitVec 3) :
    c = 0#3 ∨ c = 1#3 ∨ c = 2#3 ∨ c = 3#3 ∨ c = 4#3 ∨ 5 ≤ c.toNat := by
  revert c
  decide

/-- The reserved codes all mean the same. -/
theorem exec_decodeQmode_reserved {c : BitVec 3} (hc : 5 ≤ c.toNat) (s : State) :
    exec (decodeQmode c) s = .next (reservedStage Params.adopted s) := by
  have : c = 5#3 ∨ c = 6#3 ∨ c = 7#3 := by
    revert c
    decide
  rcases this with h | h | h <;> subst h <;> rfl

theorem renderStep_moves {u t : State} (hp : u.seq.phase = .render) (h : (renderStep u).outcome = .next t) :
    Moves .seq u t := by
  cases hs : u.stage with
  | luma =>
    simp only [renderStep, hs, Fetched.outcome, exec, execLuma] at h
    cases h
    exact .luma u hp hs
  | tone =>
    simp only [renderStep, hs, Fetched.outcome, exec, execTone] at h
    cases h
    exact .tone u hp hs
  | pack =>
    simp only [renderStep, hs, Fetched.outcome, exec, execPack] at h
    cases h
    exact .pack u hp hs
  | quant =>
    simp only [renderStep, hs, Fetched.outcome] at h
    rcases qmode_cases u.job.qmode with hq | hq | hq | hq | hq | hq
    · rw [hq] at h
      cases h
      exact .thresh u hp hs hq
    · rw [hq] at h
      cases h
      exact .fs u hp hs hq
    · rw [hq] at h
      cases h
      exact .atk u hp hs hq
    · rw [hq] at h
      cases h
      exact .ord4 u hp hs hq
    · rw [hq] at h
      cases h
      exact .ord8 u hp hs hq
    · rw [exec_decodeQmode_reserved hq] at h
      cases h
      exact .reserved u hp hs hq

/-- The moves out of GAP and out of a buffer that is whole on the link. -/
theorem advance_moves {u t : State} (hw : u.seq.wait = .none)
    (hl : u.seq.phase ≠ .gap → u.seq.off = u.cur.length) (h : (advance u).outcome = .next t) : Moves .seq u t := by
  cases hp : u.seq.phase with
  | idle =>
    simp only [advance, hp, Fetched.outcome] at h
    cases h
    exact .stay _ _
  | render =>
    simp only [advance, hp, Fetched.outcome] at h
    cases h
    exact .stay _ _
  | reset =>
    simp only [advance, hp, Fetched.outcome] at h
    cases h
    exact .advReset u hp hw (hl (by simp [hp]))
  | hdr =>
    simp only [advance, hp, Fetched.outcome] at h
    cases h
    exact .advHdr u hp hw (hl (by simp [hp]))
  | feed =>
    simp only [advance, hp, Fetched.outcome] at h
    cases h
    exact .advFeed u hp hw (hl (by simp [hp]))
  | gap =>
    by_cases hy : u.seq.y + u.bandRows < u.height
    · simp only [advance, hp, hy, if_true, Fetched.outcome] at h
      cases h
      exact .advGapNext u hp hw hy
    · simp only [advance, hp, hy, if_false, Fetched.outcome] at h
      cases h
      exact .advGapLast u hp hw hy
  | body =>
    by_cases hb : 0 < u.bandRows
    · have hw' : u.toGap.seq.wait = .none := hw
      simp only [advance, hp, hb, if_true, Fetched.outcome, exec, execSleep, hw', State.pause] at h
      cases h
      exact .advBodyBanded u hp hw (hl (by simp [hp])) hb
    · simp only [advance, hp, hb, if_false, Fetched.outcome] at h
      cases h
      exact .advBodyPlain u hp hw (hl (by simp [hp])) hb

theorem sendStep_moves {u t : State} (hw : u.seq.wait = .none) (hp : u.seq.phase ≠ .gap)
    (h : (sendStep u).outcome = .next t) : Moves .seq u t := by
  unfold sendStep at h
  by_cases hlt : u.seq.off < u.cur.length
  · by_cases h0 : u.seq.off = 0
    · rw [if_pos hlt, if_pos h0] at h
      cases hph : u.seq.phase with
      | idle => simp [State.cur, hph] at hlt
      | render => simp [State.cur, hph] at hlt
      | gap => exact absurd hph hp
      | reset =>
        simp only [txOperation, hph, Fetched.outcome, exec, execTxReset] at h
        cases h
        exact .issueReset u hph hw h0
      | hdr =>
        simp only [txOperation, hph, Fetched.outcome, exec, execTxHdr] at h
        cases h
        exact .issueHdr u hph hw h0
      | body =>
        simp only [State.cur, hph, h0] at hlt
        simp only [txOperation, hph, Fetched.outcome, exec, execTxBody] at h
        cases h
        exact .issueBody u hph hw h0 hlt
      | feed =>
        simp only [txOperation, hph, Fetched.outcome, exec, execTxFeed] at h
        cases h
        exact .issueFeed u hph hw h0
    · simp only [hlt, h0, if_true, if_false, Fetched.outcome, exec, execChunk] at h
      cases h
      exact .issueMore u hw h0 hlt
  · by_cases heq : u.seq.off = u.cur.length
    · rw [if_neg hlt, if_pos heq] at h
      exact advance_moves hw (fun _ => heq) h
    · simp only [hlt, heq, if_false, Fetched.outcome] at h
      cases h
      exact .stay _ _

theorem seqTurn_moves {u t : State} (h : (seqTurn u).outcome = .next t) : Moves .seq u t := by
  have send : u.seq.phase ≠ .gap →
      (if u.seq.wait = .none then sendStep u else .quiet (.next u)).outcome = .next t → Moves .seq u t := by
    intro hne h
    by_cases hw : u.seq.wait = .none
    · rw [if_pos hw] at h
      exact sendStep_moves hw hne h
    · rw [if_neg hw] at h
      cases h
      exact .stay _ _
  cases hph : u.seq.phase with
  | idle =>
    simp only [seqTurn, hph] at h
    cases h
    exact .stay _ _
  | render =>
    simp only [seqTurn, hph] at h
    exact renderStep_moves hph h
  | reset =>
    simp only [seqTurn, hph] at h
    exact send (by simp [hph]) h
  | hdr =>
    simp only [seqTurn, hph] at h
    exact send (by simp [hph]) h
  | body =>
    simp only [seqTurn, hph] at h
    exact send (by simp [hph]) h
  | feed =>
    simp only [seqTurn, hph] at h
    exact send (by simp [hph]) h
  | gap =>
    simp only [seqTurn, hph] at h
    by_cases hw : u.seq.wait = .none
    · rw [if_pos hw] at h
      exact advance_moves hw (fun hne => absurd hph hne) h
    · rw [if_neg hw] at h
      cases h
      exact .stay _ _

/-- What a step can do: a step that answers a next state is one of the moves, of the agent whose turn it is. -/
theorem step_moves {s t : State} (h : step s = .next t) : Moves s.nextTurn s.popTurn t := by
  unfold step fetch at h
  generalize s.nextTurn = tn at h ⊢
  generalize s.popTurn = u at h ⊢
  cases tn with
  | seq => exact seqTurn_moves h
  | link a =>
    by_cases hw : u.seq.wait = .write
    · cases a with
      | ok =>
        simp only [turnStep, linkTurn, hw, if_true, Fetched.outcome, exec, execSleep, sliceSent_seq, State.pause] at h
        cases h
        exact .completeOk u hw
      | fail =>
        simp only [turnStep, linkTurn, hw, if_true, Fetched.outcome] at h
        cases h
        exact .completeFail u hw
    · simp only [turnStep, linkTurn, hw, if_false, Fetched.outcome] at h
      cases h
      exact .stay _ _
  | timer =>
    by_cases hw : u.seq.wait = .csleep ∨ u.seq.wait = .bsleep
    · simp only [turnStep, timerTurn, hw, if_true, Fetched.outcome] at h
      cases h
      exact .wake u hw
    · simp only [turnStep, timerTurn, hw, if_false, Fetched.outcome] at h
      cases h
      exact .stay _ _
  | reset =>
    obtain rfl : u.hardwareReset = t := Host.Outcome.next.inj h
    exact .reset u
  | host a =>
    by_cases ha : a = .writeCtrl 1#1
    · subst ha
      obtain rfl : u.startJob Params.adopted.maxPix = t := Host.Outcome.next.inj h
      exact .start u
    · refine .access a u t ha ?_
      cases a with
      | writeCtrl v =>
        have hv : v ≠ 1#1 := fun e => ha (by rw [e])
        simpa [turnStep, hostTurn, decodeCtrl, hv, Fetched.outcome] using h
      | _ => exact h

/-- Every operation completes, in every state. -/
theorem exec_next (i : Instr) (s : State) : ∃ t, exec i s = .next t := by
  cases i <;> exact ⟨_, rfl⟩

end Sys2Proof.Machine
end

