-- ==== Sys2Proof/Tests/Slice0.lean ====
section
/-! SUPPORT. The model's own tests. Expected results are the spec's own (the section of 95_test_vectors.md or the rule is named in each
comment), and for every statement that has hypotheses a witness that they can be met. -/

namespace Sys2Proof.Tests

open Sys2Proof Sys2Proof.Machine

/-! ### Helpers -/

/-- A latched job: `w` columns, `h` rows, the rest as after reset. -/
def jobOf (w h : Half) : Cfg := { Cfg.reset with w := w, h := h }

/-- A running job at a position of the sequencer. -/
def busyAt (j : Cfg) (q : Seq) : State :=
  { State.reset with cfg := j, job := j, status := { Status.reset with busy := true }, seq := q }

/-- A running job inside RENDER, with luminance `lum` row by row. -/
def rendering (j : Cfg) (st : Stage) (lum : List LumNum) : State :=
  { busyAt j { Seq.reset with phase := .render } with stage := st, lum := (List.range lum.length).zip lum }

/-- The first `n` elements of LUM after a step. -/
def lumAfter (n : Nat) (o : Host.Outcome State Fault Refusal) : List LumNum :=
  match o with
  | .next t => (List.range n).map t.readLum
  | .fault _ => []
  | .refused _ => []

/-- The first `n` bytes of PK after a step. -/
def pkAfter (n : Nat) (o : Host.Outcome State Fault Refusal) : List Byte :=
  match o with
  | .next t => (List.range n).map t.readPk
  | .fault _ => []
  | .refused _ => []

/-- What a step emitted. -/
def historyAfter (o : Host.Outcome State Fault Refusal) : List Event :=
  match o with
  | .next t => t.history
  | .fault _ => []
  | .refused _ => []

/-- STATUS, ERRINFO and the mode of JOB after a step. -/
def statusAfter (o : Host.Outcome State Fault Refusal) : Option (BitVec 8 × BitVec 32 × BitVec 3) :=
  match o with
  | .next t => some (t.status.word, t.errinfo, t.job.qmode)
  | .fault _ => none
  | .refused _ => none

/-! ### Well-formedness: one ill-formed term for each check -/

theorem test_wf_header_row_bytes_zero : (Instr.txHdr 0#16 1#16).wf = false := by decide
theorem test_wf_header_row_bytes_large : (Instr.txHdr 8193#16 1#16).wf = false := by decide
theorem test_wf_header_rows_zero : (Instr.txHdr 8192#16 0#16).wf = false := by decide
theorem test_wf_header_good : (Instr.txHdr 8192#16 65535#16).wf = true := by decide
theorem test_wf_band_empty : (Instr.txBody 0 0).wf = false := by decide
theorem test_wf_band_past_end : (Instr.txBody 65535 1).wf = false := by decide
theorem test_wf_buffer_empty : (Instr.chunk []).wf = false := by decide

/-! ### Decoding, from words written out by the spec (R61, R62, R66, R67, R20) -/

theorem test_decode_reset : decode .wire2 [0b00011011#8, 0b01000000#8] = .ok (.txReset, []) := by decide
theorem test_decode_feed : decode .wire2 [0b00001010#8, 0b00001010#8] = .ok (.txFeed, []) := by decide
/-- R63's examples: `rowBytes = 48` is `30 00`, `rows = 1000` is `E8 03`. -/
theorem test_decode_header :
    decode .wire8 [0b00011101#8, 0b01110110#8, 0b00110000#8, 0b00000000#8, 0x30#8, 0x00#8, 0xE8#8, 0x03#8]
      = .ok (.txHdr 48#16 1000#16, []) := by decide
/-- R63's examples: `rowBytes = 8192` is `00 20`, `rows = 65535` is `FF FF`. -/
theorem test_decode_header_largest :
    decode .wire8 [0x1D#8, 0x76#8, 0x30#8, 0x00#8, 0x00#8, 0x20#8, 0xFF#8, 0xFF#8]
      = .ok (.txHdr 8192#16 65535#16, []) := by decide
theorem test_decode_qmode :
    [decodeQmode 0b000#3, decodeQmode 0b001#3, decodeQmode 0b010#3, decodeQmode 0b011#3, decodeQmode 0b100#3,
      decodeQmode 0b101#3, decodeQmode 0b110#3, decodeQmode 0b111#3]
      = [.qThresh, .qFs, .qAtk, .qOrd4, .qOrd8, .qReserved5, .qReserved6, .qReserved7] := by decide
theorem test_decode_start : decodeCtrl 0b1#1 = some .start := by decide
theorem test_decode_ctrl_zero : decodeCtrl 0b0#1 = none := by decide
/-- R68: byte 3 of the header is always 00. -/
theorem test_decode_header_byte3 :
    decode .wire8 [0x1D#8, 0x76#8, 0x30#8, 0x01#8, 0x30#8, 0x00#8, 0x01#8, 0x00#8]
      = .error (.unknownCommand 0x30#8 0x01#8) := by decide
theorem test_decode_truncated : decode .wire8 [0x1D#8, 0x76#8, 0x30#8] = .error .truncated := by decide
/-- R60: a two-byte command is not an eight-byte one, in the decoder and as a table word. -/
theorem test_decode_other_format :
    decode .wire8 (resetBytes ++ List.replicate 6 0#8) = .error (.otherFormat .txReset) ∧
    decode .wire2 (headerBytes 48 1000) = .error (.otherFormat (.txHdr 48#16 1000#16)) ∧
    decodeTableWord 64 0x1B40000000000000 = none := by decide
theorem test_decode_unknown : decode .wire2 [0x1B#8, 0x41#8] = .error (.unknownCommand 0x1B#8 0x41#8) := by decide

/-! ### Table words, and that the next step runs what is placed -/

theorem test_table_reset : decodeTableWord 16 0x1B40 = some .txReset := by decide
theorem test_table_feed : decodeTableWord 16 0x0A0A = some .txFeed := by decide
theorem test_table_header : decodeTableWord 64 0x1D7630003000E803 = some (.txHdr 48#16 1000#16) := by decide
theorem test_table_ord8 : decodeTableWord 3 4 = some .qOrd8 := by decide
theorem test_table_start : decodeTableWord 1 1 = some .start := by decide
theorem test_table_refused : decodeTableWord 16 0x1D76 = none := by decide

/-- The placed header goes out as the spec writes it, cut at the reset CHUNKSIZE of 160 bytes. -/
theorem test_placed_header :
    historyAfter (step (State.reset.withFetchWord 64 0x1D7630003000E803))
      = [.write 0 [0x1D#8, 0x76#8, 0x30#8, 0x00#8, 0x30#8, 0x00#8, 0xE8#8, 0x03#8]] := by decide
/-- A START straight after reset: InputError, ERRINFO 2 (R180): ERR and ERRCODE 1 are bits 2 and 3. -/
theorem test_placed_start : statusAfter (step (State.reset.withFetchWord 1 1)) = some (0x0C#8, 2#32, 1#3) := by decide

/-! ### START -/

/-- P-script `SET H 2; START` (R180): BUSY, no flag. -/
theorem test_start_runs :
    statusAfter (exec .start { State.reset with cfg := { Cfg.reset with h := 2#16 } }) = some (0x01#8, 0#32, 1#3) := by
  decide
/-- R183: a reserved code runs as mode 1 and sets FALLBACK (bit 6). -/
theorem test_start_fallback :
    statusAfter (exec .start { State.reset with cfg := { Cfg.reset with h := 2#16, qmode := 7#3 } })
      = some (0x41#8, 0#32, 1#3) := by decide

/-! ### The stages -/

/-- 95 section 2: (200, 100, 50) gives 124 for every alpha; (255, 0, 0) gives 76. -/
theorem test_luma :
    lumAfter 3 (exec .luma { rendering (jobOf 3#16 1#16) .luma [] with
      pix := [(0, ⟨200#8, 100#8, 50#8, 0#8⟩), (1, ⟨200#8, 100#8, 50#8, 255#8⟩), (2, ⟨255#8, 0#8, 0#8, 255#8⟩)] })
      = [124, 124, 76] := by decide +kernel
/-- 40_luma.md R84: the binary64 alternative gives 127 and 0 on the greys 128 and 1. -/
theorem test_luma_f64 : lumaF64 128#8 128#8 128#8 = 127#8 ∧ lumaF64 1#8 1#8 1#8 = 0#8 := by decide +kernel
/-- 95 section 3.2, gamma = 2. -/
theorem test_tone_two :
    lumAfter 5 (exec .tone (rendering { jobOf 5#16 1#16 with gamma := 0x0200#16 } .tone [0, 1, 64, 128, 255]))
      = [0, 15, 127, 180, 255] := by decide +kernel
/-- 95 section 3.2: gamma = 1/256 and 32767/256, the ends of the register's range. -/
theorem test_tone_extremes :
    lumAfter 2 (exec .tone (rendering { jobOf 2#16 1#16 with gamma := 0x0001#16 } .tone [128, 254])) = [0, 93] ∧
    lumAfter 2 (exec .tone (rendering { jobOf 2#16 1#16 with gamma := 0x7FFF#16 } .tone [1, 2])) = [244, 245] := by
  decide +kernel
/-- 95 section 3.1: 0xFF00 is gamma = -1, an identity. -/
theorem test_tone_bypass :
    lumAfter 2 (exec .tone (rendering { jobOf 2#16 1#16 with gamma := 0xFF00#16 } .tone [64, 200])) = [64, 200] := by
  decide +kernel
/-- 95 section 4.1, THRESH = 128 and 0. -/
theorem test_thresh :
    lumAfter 4 (exec .qThresh (rendering (jobOf 4#16 1#16) .quant [0, 127, 128, 255])) = [0, 0, 255, 255] ∧
    lumAfter 4 (exec .qThresh (rendering { jobOf 4#16 1#16 with thresh := 0#8 } .quant [0, 127, 128, 255]))
      = [255, 255, 255, 255] := by decide +kernel
/-- 95 section 4.2, trace F0. -/
theorem test_fs_row : lumAfter 3 (exec .qFs (rendering (jobOf 3#16 1#16) .quant [127, 127, 127])) = [0, 255, 0] := by
  decide +kernel
/-- 95 section 4.3, trace F3: the serpentine, a value above 255 used as it is, and one half a unit below 128. -/
theorem test_fs_trace :
    lumAfter 12 (exec .qFs (rendering (jobOf 4#16 3#16) .quant
      [100, 100, 100, 100, 200, 50, 128, 127, 0, 255, 64, 192])) = [0, 255, 0, 0, 255, 0, 0, 255, 0, 255, 0, 255] := by
  decide +kernel
/-- 95 section 5, trace A2. -/
theorem test_atk_uniform :
    lumAfter 9 (exec .qAtk (rendering (jobOf 3#16 3#16) .quant (List.replicate 9 120)))
      = [0, 255, 0, 0, 255, 0, 255, 0, 255] := by decide +kernel
/-- 95 section 5, trace A3. -/
theorem test_atk_trace :
    lumAfter 12 (exec .qAtk (rendering (jobOf 4#16 3#16) .quant
      [100, 100, 100, 100, 200, 50, 128, 127, 0, 255, 64, 192])) = [0, 0, 0, 255, 255, 0, 255, 0, 0, 255, 0, 255] := by
  decide +kernel
/-- R118's worked example, with the default matrix of R117: 128 is black at `m = 8` (column 1, row 0) and white at `m = 2`. -/
theorem test_ord4 :
    lumAfter 3 (exec .qOrd4 (rendering (jobOf 3#16 1#16) .quant [7, 128, 128])) = [0, 0, 255] := by decide +kernel
/-- 95 section 6.1: a tile of 100 has 6 white pixels, whatever the permutation. -/
theorem test_ord4_count :
    (lumAfter 16 (exec .qOrd4 (rendering (jobOf 4#16 4#16) .quant (List.replicate 16 100)))).count 255 = 6 := by
  decide +kernel
/-- R119's worked example: at `m = 0` 1 is black and 2 is white. -/
theorem test_ord8 :
    lumAfter 1 (exec .qOrd8 (rendering (jobOf 1#16 1#16) .quant [1])) = [0] ∧
    lumAfter 1 (exec .qOrd8 (rendering (jobOf 1#16 1#16) .quant [2])) = [255] := by decide +kernel
/-- R67: a reserved code does what Q.FS does (trace F0), and sets FALLBACK. -/
theorem test_reserved :
    lumAfter 3 (exec .qReserved5 (rendering (jobOf 3#16 1#16) .quant [127, 127, 127])) = [0, 255, 0] ∧
    lumAfter 3 (exec .qReserved6 (rendering (jobOf 3#16 1#16) .quant [127, 127, 127])) = [0, 255, 0] ∧
    statusAfter (exec .qReserved7 (rendering (jobOf 1#16 1#16) .quant [127])) = some (0x41#8, 0#32, 1#3) := by
  decide +kernel
/-- R130: nine black pixels pack to `FF 80`. -/
theorem test_pack_padding :
    pkAfter 2 (exec .pack (rendering (jobOf 9#16 1#16) .pack (List.replicate 9 0))) = [0xFF#8, 0x80#8] := by
  decide +kernel
/-- 95 section 4.3: F3's picture packs to `B0 60 A0`. -/
theorem test_pack_rows :
    pkAfter 3 (exec .pack (rendering (jobOf 4#16 3#16) .pack [0, 255, 0, 0, 255, 0, 0, 255, 0, 255, 0, 255]))
      = [0xB0#8, 0x60#8, 0xA0#8] := by decide +kernel
/-- R116: both default matrices are permutations. -/
theorem test_matrices : isBayer 4 (matrixAt bayer4Default) = true ∧ isBayer 8 (matrixAt bayer8Default) = true := by
  decide +kernel

/-! ### Transmit -/

/-- S4: with CHUNKSIZE 1 the first write of the reset command is `[1B]`. -/
theorem test_reset_chunked :
    historyAfter (exec .txReset (busyAt { jobOf 8#16 1#16 with chunkSize := 1#16 } { Seq.reset with phase := .reset }))
      = [.write 0 [0x1B#8]] := by decide
/-- R142's worked example: 384 columns, a band of 24 rows. -/
theorem test_header :
    historyAfter (exec (.txHdr 48#16 24#16) (busyAt (jobOf 384#16 24#16) { Seq.reset with phase := .hdr }))
      = [.write 0 [0x1D#8, 0x76#8, 0x30#8, 0x00#8, 0x30#8, 0x00#8, 0x18#8, 0x00#8]] := by decide
/-- R143: the body of band (1, 2) of F3's bitmap (one byte a row) is its bytes 1 and 2. -/
theorem test_body :
    historyAfter (exec (.txBody 1 2) { busyAt (jobOf 4#16 3#16) { Seq.reset with phase := .body } with
      pk := [(0, 0xB0#8), (1, 0x60#8), (2, 0xA0#8)] }) = [.write 0 [0x60#8, 0xA0#8]] := by decide
theorem test_feed :
    historyAfter (exec .txFeed (busyAt (jobOf 8#16 1#16) { Seq.reset with phase := .feed })) = [.write 0 [0x0A#8, 0x0A#8]] := by
  decide
/-- R160's worked example: `1D 76 30 00 02 00 02 00` with chunk size 3; the second and the third slice. -/
theorem test_chunk :
    historyAfter (exec (.chunk (headerBytes 2 2))
      (busyAt { jobOf 16#16 2#16 with chunkSize := 3#16 } { Seq.reset with phase := .hdr, off := 3, nwr := 1 }))
      = [.write 1 [0x00#8, 0x02#8, 0x00#8]] ∧
    historyAfter (exec (.chunk (headerBytes 2 2))
      (busyAt { jobOf 16#16 2#16 with chunkSize := 3#16 } { Seq.reset with phase := .hdr, off := 6, nwr := 2 }))
      = [.write 2 [0x02#8, 0x00#8]] := by decide
/-- R163: a pause of CHUNKDELAY, and no event at all when it is 0. -/
theorem test_sleep :
    historyAfter (exec (.sleep .chunk) (busyAt { jobOf 8#16 1#16 with chunkDelay := 7#16 } { Seq.reset with phase := .hdr }))
      = [.sleep 7#16] ∧
    historyAfter (exec (.sleep .chunk) (busyAt (jobOf 8#16 1#16) { Seq.reset with phase := .hdr })) = [] := by decide
/-- R147: with banding off there is no band pause, whatever BANDDELAY holds. -/
theorem test_band_pause_needs_banding :
    historyAfter (exec (.sleep .band) (busyAt { jobOf 8#16 1#16 with bandDelay := 9#16 } { Seq.reset with phase := .gap }))
      = [] := by decide
/-- S2: BANDROWS 3, height 7. -/
theorem test_bands : bandsOf 3 7 = [(0, 3), (3, 3), (6, 1)] := by decide
/-- S5: bytes a row for widths 1, 7, 8, 9, 384, 383. -/
theorem test_row_bytes : [1, 7, 8, 9, 384, 383].map rowBytesOf = [1, 1, 1, 2, 48, 48] := by decide

/-! ### Witnesses: states and operands that meet the hypotheses of each statement -/

/-- A job with banding, both pauses, and slices of 3 bytes. -/
def paced : Cfg :=
  { jobOf 9#16 3#16 with chunkSize := 3#16, bandRows := 2#16, bandDelay := 5#16, chunkDelay := 7#16 }

/-- The job `paced` at the start of its transmit part. -/
def sending : State := busyAt paced { Seq.reset with phase := .reset }

/-- The job `paced` with the first slice of its first header outstanding. -/
def writing : State := busyAt paced ⟨.hdr, 0, 2, 0, .write, 1⟩

/-- The job `paced` in the pause after its first band. -/
def pausing : State := { busyAt paced ⟨.gap, 0, 2, 4, .bsleep, 6⟩ with timer := some 5#16 }

/-- The job `paced` with its last band sent. -/
def lastGap : State := busyAt paced ⟨.gap, 2, 1, 2, .none, 10⟩

theorem sending_inv : Inv sending := by constructor <;> constructor <;> decide
theorem writing_inv : Inv writing := by constructor <;> constructor <;> decide
theorem pausing_inv : Inv pausing := by constructor <;> constructor <;> decide
theorem lastGap_inv : Inv lastGap := by constructor <;> constructor <;> decide

/-- An 8 x 1 job at the start of RENDER. -/
def starting : State := { rendering (jobOf 8#16 1#16) .luma [] with pix := [(0, ⟨0#8, 0#8, 0#8, 0#8⟩)] }

theorem witness_StepKeepsInvariant : Inv writing ∧ ∃ t, step writing = .next t := ⟨writing_inv, _, rfl⟩

theorem witness_StepRunsSelectedOperation :
    State.reset.turns = [] ∧
    (starting.seq.phase = .render ∧ starting.stage = .luma) ∧
    (∃ s : State, s.seq.phase = .render ∧ s.stage = .tone) ∧
    (∃ s : State, s.seq.phase = .render ∧ s.stage = .quant) ∧
    (∃ s : State, s.seq.phase = .render ∧ s.stage = .pack) ∧
    (sending.seq.wait = .none ∧ sending.seq.off = 0 ∧ sending.seq.phase = .reset) ∧
    (∃ s : State, s.seq.wait = .none ∧ s.seq.off = 0 ∧ s.seq.phase = .hdr) ∧
    (∃ s : State, s.seq.wait = .none ∧ s.seq.off = 0 ∧ s.seq.phase = .body ∧ 0 < s.rowBytes * s.seq.rows) ∧
    (∃ s : State, s.seq.wait = .none ∧ s.seq.off = 0 ∧ s.seq.phase = .feed) ∧
    (∃ s : State, s.seq.wait = .none ∧ 0 < s.seq.off ∧ s.seq.off < s.cur.length) ∧
    writing.seq.wait = .write ∧
    (∃ s : State, s.seq.phase = .body ∧ s.seq.wait = .none ∧ s.seq.off = s.cur.length ∧ 0 < s.bandRows) :=
  ⟨by decide, by decide, ⟨rendering paced .tone [], by decide⟩, ⟨rendering paced .quant [], by decide⟩,
    ⟨rendering paced .pack [], by decide⟩, by decide, ⟨busyAt paced ⟨.hdr, 0, 2, 0, .none, 1⟩, by decide⟩,
    ⟨busyAt paced ⟨.body, 0, 2, 0, .none, 4⟩, by decide⟩, ⟨busyAt paced ⟨.feed, 2, 1, 0, .none, 10⟩, by decide⟩,
    ⟨busyAt paced ⟨.hdr, 0, 2, 7, .none, 3⟩, by decide⟩, by decide,
    ⟨busyAt paced ⟨.body, 0, 2, 4, .none, 6⟩, by decide⟩⟩

theorem witness_PlacedWordRuns :
    decodeTableWord 64 0x1D7630000020FFFF = some (.txHdr 8192#16 65535#16) ∧ (Instr.txHdr 8192#16 65535#16).wf = true ∧
    decodeTableWord 3 7 = some .qReserved7 ∧ Instr.qReserved7.wf = true := by decide

theorem witness_DecodeOfEncode :
    encode (.txHdr 0xFFFF#16 0x00FF#16) = some [0x1D#8, 0x76#8, 0x30#8, 0x00#8, 0xFF#8, 0xFF#8, 0xFF#8, 0x00#8] ∧
    encode .start = some [0x01#8] := by decide

theorem witness_EncodeOfDecode :
    decodeWire [0x1D#8, 0x76#8, 0x30#8, 0x00#8, 0xFF#8, 0xFF#8, 0x00#8, 0x00#8] = .ok (.txHdr 0xFFFF#16 0#16, []) ∧
    decodeQmodeByte [0x07#8, 0xAA#8] = .ok (.qReserved7, [0xAA#8]) ∧ decodeCtrlByte [0x01#8] = .ok (.start, []) := by
  decide

theorem witness_HeaderFieldsAreLittleEndian :
    (0 ≤ 65535 ∧ 65535 ≤ 65535) ∧ (1 ≤ 1 ∧ 1 ≤ 65535) ∧ (1 ≤ 65535) ∧ 1 ≤ sending.height ∧ (2, 1) ∈ sending.bands := by
  decide

theorem witness_BusyStartIsRejected : sending.status.busy = true := by decide

/-- Boundaries: 1 x 1 pixels in slices of one byte, and 65535 x 65535. -/
theorem witness_AcceptedStartLatchesAndRuns :
    ∃ s s' : State,
      (s.status.busy = false ∧ s.cfg.w.toNat = 1 ∧ s.cfg.h.toNat = 1 ∧ s.cfg.chunkSize.toNat = 1 ∧ s.cfg.qmode.toNat = 4) ∧
      (s'.status.busy = false ∧ s'.cfg.w.toNat = 65535 ∧ s'.cfg.h.toNat = 65535 ∧ 1 ≤ s'.cfg.chunkSize.toNat ∧
        s'.cfg.qmode.toNat = 5) :=
  ⟨{ State.reset with cfg := { jobOf 1#16 1#16 with chunkSize := 1#16, qmode := 4#3 } },
    { State.reset with cfg := { jobOf 65535#16 65535#16 with qmode := 5#3 } }, by decide⟩

/-- Each of the four checks, the third one pixel above a capacity of 9999; and the job of exactly that many pixels. -/
theorem witness_FailedCheckIsInputError :
    (State.reset.status.busy = false ∧ 100 * 99 ≤ 9999 ∧ 100 * 100 > 9999) ∧
    ∃ s1 s2 s3 s4 s5 : State,
      (s1.status.busy = false ∧ s1.cfg.w.toNat = 0) ∧
      (s2.status.busy = false ∧ 1 ≤ s2.cfg.w.toNat ∧ s2.cfg.h.toNat = 0) ∧
      (s3.status.busy = false ∧ 1 ≤ s3.cfg.w.toNat ∧ 1 ≤ s3.cfg.h.toNat ∧ 9999 < s3.cfg.w.toNat * s3.cfg.h.toNat) ∧
      (s4.status.busy = false ∧ 1 ≤ s4.cfg.w.toNat ∧ 1 ≤ s4.cfg.h.toNat ∧ s4.cfg.w.toNat * s4.cfg.h.toNat ≤ 9999 ∧
        s4.cfg.chunkSize.toNat = 0) ∧
      (s5.status.busy = false ∧ 1 ≤ s5.cfg.w.toNat ∧ 1 ≤ s5.cfg.h.toNat ∧ s5.cfg.w.toNat * s5.cfg.h.toNat ≤ 9999 ∧
        1 ≤ s5.cfg.chunkSize.toNat) :=
  ⟨by decide, { State.reset with cfg := jobOf 0#16 0#16 }, State.reset, { State.reset with cfg := jobOf 100#16 100#16 },
    { State.reset with cfg := { jobOf 99#16 101#16 with chunkSize := 0#16 } },
    { State.reset with cfg := jobOf 9999#16 1#16 }, by decide⟩

theorem witness_HostAccessLeavesJobAlone :
    HostAction.writeCtrl 0#1 ≠ .writeCtrl 1#1 ∧
    (∃ t, step { sending with turns := [.host (.writeCtrl 0#1)] } = .next t) ∧ sending.status.busy = true ∧
    65535 * 65535 - 1 < Params.adopted.maxPix ∧ 8192 * 65535 - 1 < 8192 * 65535 :=
  ⟨by decide, ⟨_, rfl⟩, by decide⟩

theorem witness_HostPortReadsAndWrites :
    sending.status.busy = true ∧ State.reset.status.busy = false ∧ 65535 * 65535 - 1 < Params.adopted.maxPix ∧
    8192 * 65535 - 1 < 8192 * 65535 := by decide

theorem witness_OnlyMissingElementsFault :
    step { State.reset with turns := [.host (.readPix (65535 * 65535))] } = .fault (.noSuchElement (65535 * 65535)) ∧
    step { State.reset with turns := [.host (.readPk (8192 * 65535))] } = .fault (.noSuchElement (8192 * 65535)) :=
  ⟨rfl, rfl⟩

theorem witness_LumaComputesLuminance :
    7 < starting.width ∧ 0 < starting.height ∧ starting.width * starting.height ≤ 8 := by decide

theorem witness_ToneBypassKeepsLum :
    (0x8000#16).getLsbD 15 = true ∧
    ∃ s1 s2 s3 : State, s1.job.gamma.getLsbD 15 = true ∧ s2.job.gamma = 0#16 ∧ s3.job.gamma = 0x0100#16 :=
  ⟨by decide, rendering { jobOf 1#16 1#16 with gamma := 0x8000#16 } .tone [],
    rendering { jobOf 1#16 1#16 with gamma := 0#16 } .tone [], rendering (jobOf 1#16 1#16) .tone [], by decide⟩

/-- The gammas next to 1.0 on both sides, at the ends of the element range. -/
theorem witness_ToneCurveIsLargestFit :
    ∃ s s' : State,
      (s.job.gamma.getLsbD 15 = false ∧ s.job.gamma ≠ 0#16 ∧ s.job.gamma ≠ 0x0100#16 ∧ 1 < s.width ∧ 0 < s.height ∧
        s.readLum (pixelAddr s.width 1 0) = ((255 : Nat) : LumNum)) ∧
      (s'.job.gamma.getLsbD 15 = false ∧ s'.job.gamma ≠ 0#16 ∧ s'.job.gamma ≠ 0x0100#16 ∧ 0 < s'.width ∧ 0 < s'.height ∧
        s'.readLum (pixelAddr s'.width 0 0) = ((0 : Nat) : LumNum)) :=
  ⟨rendering { jobOf 2#16 1#16 with gamma := 0x00FF#16 } .tone [0, 255],
    rendering { jobOf 2#16 1#16 with gamma := 0x0101#16 } .tone [0, 255], by decide +kernel⟩

theorem witness_ToneBoundariesAndShape : 0 < 1 ∧ 0 < 256 ∧ 1 < 256 ∧ 256 < 32767 ∧ 255 ≤ 255 := by decide

theorem witness_ThresholdQuantizer : 0 < starting.width ∧ 0 < starting.height ∧ starting.width * starting.height ≤ 8 := by
  decide

theorem witness_OrderedQuantizers : 7 < starting.width ∧ 0 < starting.height ∧ starting.width * starting.height ≤ 8 := by
  decide

theorem witness_DiffusionQuantizersComplete : starting.width * starting.height ≤ 8 := by decide

theorem witness_ReservedModesRunDefault : starting.width * starting.height ≤ 8 := by decide

theorem witness_QuantizersLeaveBlackAndWhite :
    0 < starting.width ∧ 0 < starting.height ∧
    threshStage starting ∈ [threshStage starting, fsStage Params.adopted starting, atkStage Params.adopted starting,
      ord4Stage Params.adopted starting, ord8Stage Params.adopted starting] :=
  ⟨by decide, by decide, by simp⟩

/-- The corner `(0, 0)` and the corner `(1, 1)` of a 2 x 2 grid. -/
theorem witness_FloydSteinbergVisit :
    (∀ v, Params.adopted.rnd v = v) ∧ ((-1 : Int) = 1 ∨ (-1 : Int) = -1) ∧ (1 < 2 ∧ 1 < 2) ∧ (0 < 2 ∧ (0, 0) ≠ (1, 1)) ∧
    2 * 2 ≤ 4 := ⟨fun _ => rfl, by decide⟩

theorem witness_AtkinsonVisit :
    (∀ v, Params.adopted.rnd v = v) ∧ (0 < 3 ∧ 0 < 3) ∧ (2 < 3 ∧ (2, 0) ≠ (0, 0)) ∧ 3 * 3 ≤ 9 := ⟨fun _ => rfl, by decide⟩

theorem witness_DiffusionScanOrder : (0, 1) ∈ (serpentine 2 2).map (fun v => v.2) ∧ (1, 1) ∈ raster 2 2 := by decide

/-- One pixel of 255, and its only visit. -/
theorem witness_FloydSteinbergBounds :
    (∀ v, Params.adopted.rnd v = v) ∧
    (∀ x y, x < 1 → y < 1 →
      0 ≤ memRead (fun _ => 0) [(0, (255 : LumNum))] (pixelAddr 1 x y) ∧
        memRead (fun _ => 0) [(0, (255 : LumNum))] (pixelAddr 1 x y) ≤ 255) ∧
    (serpentine 1 1)[0]? = some (1, 0, 0) := by
  refine ⟨fun _ => rfl, fun x y hx hy => ?_, by decide⟩
  obtain rfl : x = 0 := by omega
  obtain rfl : y = 0 := by omega
  decide +kernel

theorem witness_AtkinsonBounds :
    (∀ v, Params.adopted.rnd v = v) ∧
    (∀ x y, x < 1 → y < 1 →
      0 ≤ memRead (fun _ => 0) [(0, (255 : LumNum))] (pixelAddr 1 x y) ∧
        memRead (fun _ => 0) [(0, (255 : LumNum))] (pixelAddr 1 x y) ≤ 255) ∧
    (raster 1 1)[0]? = some (0, 0) := by
  refine ⟨fun _ => rfl, fun x y hx hy => ?_, by decide⟩
  obtain rfl : x = 0 := by omega
  obtain rfl : y = 0 := by omega
  decide +kernel

/-- Columns 0 and 8 of rows 0 and 8, in two grids of different sizes. -/
theorem witness_OrderedOutputIsTilePeriodic :
    ∃ s s' t t' u u' : State, 0 < s.width ∧ 0 < s.height ∧ 8 < s'.width ∧ 0 < s'.height ∧
      s.readLum (pixelAddr s.width 0 0) = s'.readLum (pixelAddr s'.width 8 0) ∧
      exec .qOrd4 s = .next t ∧ exec .qOrd4 s' = .next t' ∧ 0 % 4 = 8 % 4 ∧
      exec .qOrd8 s = .next u ∧ exec .qOrd8 s' = .next u' ∧ 0 % 8 = 8 % 8 :=
  ⟨rendering (jobOf 1#16 1#16) .quant [100], rendering (jobOf 9#16 1#16) .quant (List.replicate 9 100), _, _, _, _,
    by decide, by decide, by decide, by decide, by decide +kernel, rfl, rfl, rfl, rfl, rfl, rfl⟩

theorem witness_PackSetsBits : 7 < 8 * starting.rowBytes ∧ 0 < starting.height ∧ starting.rowBytes * starting.height ≤ 1 := by
  decide

/-- A picture of one black and one white pixel; column 2 is padding. -/
theorem witness_PackRoundTrips :
    ∃ s t : State, exec .pack s = .next t ∧
      (∀ x y, x < s.width → y < s.height →
        s.readLum (pixelAddr s.width x y) = 0 ∨ s.readLum (pixelAddr s.width x y) = 255) ∧
      1 < s.width ∧ 0 < s.height ∧ s.width ≤ 2 ∧ 2 < 8 * s.rowBytes := by
  refine ⟨rendering (jobOf 2#16 1#16) .pack [0, 255], _, rfl, fun x y hx hy => ?_, by decide⟩
  have hx' : x < 2 := hx
  have hy' : y < 1 := hy
  obtain rfl : y = 0 := by omega
  interval_cases x
  · left; decide +kernel
  · right; decide +kernel

theorem witness_RenderIsTheComposite :
    starting.seq.phase = .render ∧ starting.stage = .luma ∧ starting.job.qmode.toNat < 5 ∧
    0 < starting.rowBytes * starting.height ∧ starting.rowBytes * starting.height ≤ 1 := by decide

/-- The same 1 x 1 picture under two pacings. -/
theorem witness_PictureDependsOnlyOnJobAndPixels :
    ∃ s s' t t' : State, s.seq.phase = .render ∧ s.stage = .luma ∧ s'.seq.phase = .render ∧ s'.stage = .luma ∧
      s.job.qmode.toNat < 5 ∧ s'.job.w = s.job.w ∧ s'.job.h = s.job.h ∧ s'.job.gamma = s.job.gamma ∧
      s'.job.qmode = s.job.qmode ∧ s'.job.thresh = s.job.thresh ∧
      (∀ a, a < s.width * s.height → s'.readPix a = s.readPix a) ∧
      runSteps 4 { s with turns := [.seq, .seq, .seq, .seq] } = .next t ∧
      runSteps 4 { s' with turns := [.seq, .seq, .seq, .seq] } = .next t' ∧ 0 < s.rowBytes * s.height :=
  ⟨{ rendering (jobOf 1#16 1#16) .luma [] with pix := [(0, ⟨9#8, 9#8, 9#8, 9#8⟩)] },
    { rendering { jobOf 1#16 1#16 with chunkSize := 1#16, chunkDelay := 3#16 } .luma [] with
      pix := [(0, ⟨9#8, 9#8, 9#8, 9#8⟩)] },
    _, _, rfl, rfl, rfl, rfl, by decide, rfl, rfl, rfl, rfl, rfl,
    fun a ha => rfl, rfl, rfl, by decide⟩

theorem witness_TransmitCommandsSendFirstSlice : sending.seq.wait = .none := by decide

/-- A band of one row, and the empty band. -/
theorem witness_TransmitBodySendsFirstSlice :
    sending.seq.wait = .none ∧ 0 < sending.rowBytes * 1 ∧ sending.rowBytes * 0 = 0 := by decide

/-- The last byte of a buffer, and its end. -/
theorem witness_ChunkSendsNextSlice :
    ∃ s s' : State, (s.seq.wait = .none ∧ s.seq.off < (headerBytes 2 2).length ∧ s.seq.off = 7) ∧
      (s'.seq.wait = .none ∧ (headerBytes 2 2).length ≤ s'.seq.off ∧ s'.seq.off = 8) :=
  ⟨busyAt paced ⟨.hdr, 0, 2, 7, .none, 3⟩, busyAt paced ⟨.hdr, 0, 2, 8, .none, 3⟩, by decide⟩

/-- Both pauses at 1 millisecond, and each way of having none. -/
theorem witness_SleepStartsPause :
    ∃ s1 s2 s3 s4 : State,
      (s1.seq.wait = .none ∧ s1.job.chunkDelay.toNat = 1 ∧ s1.job.bandRows.toNat = 1 ∧ s1.job.bandDelay.toNat = 1) ∧
      (s2.seq.wait = .none ∧ s2.job.chunkDelay.toNat = 0) ∧ (s3.seq.wait = .none ∧ s3.job.bandRows.toNat = 0) ∧
      (s4.seq.wait = .none ∧ s4.job.bandDelay.toNat = 0) :=
  ⟨busyAt { paced with chunkDelay := 1#16, bandRows := 1#16, bandDelay := 1#16 } ⟨.hdr, 0, 1, 0, .none, 1⟩,
    busyAt { paced with chunkDelay := 0#16 } ⟨.hdr, 0, 2, 0, .none, 1⟩,
    busyAt { paced with bandRows := 0#16 } ⟨.hdr, 0, 3, 0, .none, 1⟩,
    busyAt { paced with bandDelay := 0#16 } ⟨.hdr, 0, 2, 0, .none, 1⟩, by decide⟩

theorem witness_SendingWaitsWhilePending :
    writing.seq.wait ≠ .none ∧ pausing.seq.wait ≠ .none ∧ (∃ buf, Instr.chunk [0x01#8] = .chunk buf) ∧
    (∃ p, Instr.sleep .band = .sleep p) := ⟨by decide, by decide, ⟨_, rfl⟩, ⟨_, rfl⟩⟩

/-- Three bytes in slices of two: the full slice and the short one; one byte in one slice. -/
theorem witness_SlicesPartitionBuffer :
    1 ≤ 2 ∧ (slicesOf 2 resetBytes)[0]? = some resetBytes ∧
    (slicesOf 2 [1#8, 2#8, 3#8])[0]? = some [1#8, 2#8] ∧ 0 + 1 < (slicesOf 2 [1#8, 2#8, 3#8]).length ∧
    (slicesOf 2 [1#8, 2#8, 3#8])[1]? = some [3#8] ∧ ([1#8] : List Byte).length ≤ 1 ∧ ([1#8] : List Byte) ≠ [] := by decide

theorem witness_BandsPartitionPicture :
    1 ≤ 7 ∧ (bandsOf 3 7)[1]? = some (3, 3) ∧ (bandsOf 3 7)[1 + 1]? = some (6, 1) ∧
    (bandsOf 3 7).getLast? = some (6, 1) ∧ (0, 1) ∈ bandsOf 0 1 := by decide

theorem witness_BandBodiesAreTheBitmap : 1 ≤ sending.height := by decide

theorem witness_StreamLength : 1 ≤ sending.height := by decide

theorem witness_ScheduleCarriesTheStream : 1 ≤ sending.chunkSize := by decide

theorem witness_OkAndWakeMoveOn :
    (∃ s : State, s.seq.wait = .write ∧ s.job.chunkDelay.toNat = 0) ∧
    (writing.seq.wait = .write ∧ 0 < writing.job.chunkDelay.toNat) ∧ pausing.seq.wait = .bsleep ∧
    (∃ s : State, s.seq.wait = .csleep) :=
  ⟨⟨busyAt { paced with chunkDelay := 0#16 } ⟨.hdr, 0, 2, 0, .write, 1⟩, by decide⟩, by decide, by decide,
    ⟨busyAt paced ⟨.hdr, 0, 2, 3, .csleep, 2⟩, by decide⟩⟩

theorem witness_FailEndsTheJob : writing.seq.wait = .write := by decide

theorem witness_IdleBlockStaysIdle :
    State.reset.seq.phase = .idle ∧ State.reset.seq.wait = .none ∧ (∃ t, step State.reset = .next t) ∧
    State.reset.nextTurn ≠ .reset ∧ State.reset.nextTurn ≠ .host (.writeCtrl 1#1) :=
  ⟨rfl, rfl, ⟨_, rfl⟩, by decide, by decide⟩

theorem witness_UnansweredWaitHangs :
    (writing.seq.phase.sends = true ∧ (∃ t, step writing = .next t) ∧ writing.nextTurn ≠ .reset ∧
      writing.status.busy = true ∧ writing.seq.wait = .write ∧ ∀ a, writing.nextTurn ≠ .link a) ∧
    (pausing.seq.phase = .gap ∧ (∃ t, step pausing = .next t) ∧ pausing.nextTurn ≠ .reset ∧ pausing.status.busy = true ∧
      pausing.seq.wait = .bsleep ∧ pausing.nextTurn ≠ .timer) :=
  ⟨⟨rfl, ⟨_, rfl⟩, by decide, rfl, rfl, fun a => by cases a <;> decide⟩, ⟨rfl, ⟨_, rfl⟩, by decide, rfl, rfl, by decide⟩⟩

/-- Each row of the table of R171; in GAP one row short of the end, and at it. -/
theorem witness_AdvanceFollowsTable :
    ∃ s1 s2 s3 s4 s5 s6 s8 : State,
      (s1.seq.wait = .none ∧ s1.seq.phase = .reset ∧ s1.seq.off = 2) ∧
      (s2.seq.wait = .none ∧ s2.seq.phase = .hdr ∧ s2.seq.off = 8) ∧
      (s3.seq.wait = .none ∧ s3.seq.phase = .body ∧ s3.seq.off = s3.rowBytes * s3.seq.rows ∧ s3.bandRows = 0) ∧
      (s4.seq.wait = .none ∧ s4.seq.phase = .body ∧ s4.seq.off = s4.rowBytes * s4.seq.rows ∧ 0 < s4.bandRows ∧
        0 < s4.job.bandDelay.toNat) ∧
      (s5.seq.wait = .none ∧ s5.seq.phase = .body ∧ s5.seq.off = s5.rowBytes * s5.seq.rows ∧ 0 < s5.bandRows ∧
        s5.job.bandDelay.toNat = 0) ∧
      (s6.seq.wait = .none ∧ s6.seq.phase = .gap ∧ s6.seq.y + s6.bandRows + 1 = s6.height) ∧
      (lastGap.seq.wait = .none ∧ lastGap.seq.phase = .gap ∧ lastGap.height ≤ lastGap.seq.y + lastGap.bandRows) ∧
      (s8.seq.wait = .none ∧ s8.seq.phase = .feed ∧ s8.seq.off = 2) :=
  ⟨busyAt paced ⟨.reset, 0, 0, 2, .none, 1⟩, busyAt paced ⟨.hdr, 0, 2, 8, .none, 4⟩,
    busyAt { paced with bandRows := 0#16 } ⟨.body, 0, 3, 6, .none, 6⟩, busyAt paced ⟨.body, 0, 2, 4, .none, 6⟩,
    busyAt { paced with bandDelay := 0#16 } ⟨.body, 0, 2, 4, .none, 6⟩, busyAt paced ⟨.gap, 0, 2, 4, .none, 6⟩,
    busyAt paced ⟨.feed, 2, 1, 2, .none, 11⟩, by decide⟩

theorem witness_WritesAreSerialized :
    (Inv sending ∧ ∃ t, step sending = .next t) ∧ (Inv writing ∧ ∃ t, step { writing with turns := [] } = .next t) :=
  ⟨⟨sending_inv, _, rfl⟩, writing_inv, _, rfl⟩

theorem witness_EmittedPlusRemainingIsConserved :
    (Inv sending ∧ sending.seq.phase.sends = true ∧ (∃ t, step sending = .next t) ∧ sending.nextTurn ≠ .reset ∧
      sending.nextTurn ≠ .link .fail) ∧
    (Inv lastGap ∧ lastGap.seq.phase = .gap ∧ (∃ t, step lastGap = .next t) ∧ lastGap.nextTurn ≠ .reset ∧
      lastGap.nextTurn ≠ .link .fail) :=
  ⟨⟨sending_inv, rfl, ⟨_, rfl⟩, by decide, by decide⟩, ⟨lastGap_inv, rfl, ⟨_, rfl⟩, by decide, by decide⟩⟩

theorem witness_EmittedIsPrefixOfSchedule :
    Inv sending ∧ AtTransmitStart sending ∧
    (∀ tn ∈ sending.turns, tn ≠ .reset ∧ tn ≠ .host (.writeCtrl 1#1)) ∧ ∃ t, runSteps 1 sending = .next t :=
  ⟨sending_inv, rfl, by decide, _, rfl⟩

theorem witness_JobRunsToDone : Inv sending ∧ AtTransmitStart sending := ⟨sending_inv, rfl⟩

/-- A run in which the very first write fails. -/
theorem witness_FailedWriteStopsTheSchedule_run :
    ∃ (s t : State) (l : List Event), Inv s ∧ AtTransmitStart s ∧
      (∀ tn ∈ s.turns, tn ≠ .reset ∧ tn ≠ .host (.writeCtrl 1#1)) ∧ runSteps 2 s = .next t ∧
      t.history = s.history ++ l ∧ .failed 0 ∈ l :=
  ⟨{ sending with turns := [.seq, .link .fail] }, _, [.write 0 [0x1B#8, 0x40#8], .failed 0],
    by constructor <;> constructor <;> decide, rfl, by decide, rfl, by decide, by decide⟩

/-- The last write of the job: 1 + (3 + 2) + (3 + 1) + 1 = 11 writes of at most 3 bytes. -/
theorem witness_FailedWriteStopsTheSchedule :
    Inv sending ∧ AtTransmitStart sending ∧ 10 < writeCount sending.schedule :=
  ⟨sending_inv, rfl, by decide⟩

/-- A 1 x 1 job in slices of one byte, with a reserved mode code. -/
theorem witness_WholeJobSendsThePicture :
    ∃ s : State, Inv s ∧ s.status.busy = false ∧ s.cfg.w.toNat = 1 ∧ s.cfg.h.toNat = 1 ∧ s.cfg.chunkSize.toNat = 1 :=
  ⟨{ State.reset with cfg := { jobOf 1#16 1#16 with chunkSize := 1#16, qmode := 5#3 } },
    by constructor <;> constructor <;> decide, by decide⟩

theorem witness_SequencerNeverMovesBack :
    Inv pausing ∧ (pausing.seq.phase.sends = true ∨ pausing.seq.phase = .gap) ∧
    ∃ t, step { pausing with turns := [.timer] } = .next t ∧ t.status.busy = true :=
  ⟨pausing_inv, Or.inr rfl, _, rfl, rfl⟩

/-- A step that changes PIX, one that changes CFG, one that changes LUM, one that changes PK. -/
theorem witness_MemoriesHaveOneWriter :
    ∃ s1 t1 s2 t2 s3 t3 s4 t4 : State,
      (step s1 = .next t1 ∧ s1.nextTurn ≠ .reset ∧ t1.pix ≠ s1.pix) ∧
      (step s2 = .next t2 ∧ s2.nextTurn ≠ .reset ∧ t2.cfg ≠ s2.cfg) ∧
      (step s3 = .next t3 ∧ s3.nextTurn ≠ .reset ∧ t3.lum ≠ s3.lum) ∧
      (step s4 = .next t4 ∧ s4.nextTurn ≠ .reset ∧ t4.pk ≠ s4.pk) :=
  ⟨{ State.reset with turns := [.host (.writePix 0 ⟨1#8, 2#8, 3#8, 4#8⟩)] }, _,
    { State.reset with turns := [.host (.setH 1#16)] }, _,
    rendering (jobOf 1#16 1#16) .quant [5], _, rendering (jobOf 1#16 1#16) .pack [0], _,
    ⟨rfl, by decide, by decide⟩, ⟨rfl, by decide, by decide⟩, ⟨rfl, by decide, by decide +kernel⟩,
    ⟨rfl, by decide, by decide +kernel⟩⟩

theorem witness_OnlyStartChangesJob :
    ∃ s t : State, Inv s ∧ step s = .next t ∧ t.job ≠ s.job := by
  refine ⟨{ State.reset with cfg := jobOf 1#16 1#16, turns := [.host (.writeCtrl 1#1)] }, _, ?_, rfl, ?_⟩
  · constructor <;> constructor <;> decide
  · decide

end Sys2Proof.Tests
end

section
/-! SUPPORT. Facts about a state that the invariant's proof turns on: how long the current buffer is, what a legal position says
about its band and its write count, and which fields each part of the invariant looks at. -/

namespace Sys2Proof.Machine

open Sys2Proof

/-! ### The current buffer -/

/-- The length of the buffer of a phase, for a band of `rows` rows (R140 to R145). -/
def Phase.bufferLen (p : Phase) (rowBytes rows : Nat) : Nat :=
  match p with
  | .reset => 2
  | .hdr => 8
  | .body => rowBytes * rows
  | .feed => 2
  | .idle => 0
  | .render => 0
  | .gap => 0

theorem cur_length (s : State) : s.cur.length = s.seq.phase.bufferLen s.rowBytes s.seq.rows := by
  unfold State.cur Phase.bufferLen
  cases s.seq.phase <;> simp [resetBytes, headerBytes, feedBytes]

/-- Only a sending phase has bytes to send. -/
theorem sends_of_off_lt {s : State} (hl : s.seq.off < s.cur.length) : s.seq.phase.sends = true := by
  rw [cur_length] at hl
  cases hp : s.seq.phase <;> simp [hp, Phase.bufferLen, Phase.sends] at hl ⊢

/-- A phase of the transmit part, a sending phase or GAP, is not idle. -/
theorem ne_idle_of_transmits {p : Phase} (hp : p.sends = true ∨ p = .gap) : p ≠ .idle := by
  rintro rfl
  exact absurd hp (by decide)

/-- A phase of the transmit part is not RENDER. -/
theorem ne_render_of_transmits {p : Phase} (hp : p.sends = true ∨ p = .gap) : p ≠ .render := by
  rintro rfl
  exact absurd hp (by decide)

/-! ### Handing over a slice and pausing -/

/-- The move from `s` to `t` is an *issue* (R166): with nothing outstanding and bytes left of the current buffer, the next slice
of a buffer of its length is handed over. -/
def IssuesSlice (s t : State) : Prop :=
  s.seq.wait = .none ∧ s.seq.off < s.cur.length ∧ ∃ buf, buf.length = s.cur.length ∧ t = s.issue buf

section
variable {s : State} (hw : s.seq.wait = .none)
include hw

/-- A TX operation at the start of its phase is an *issue*. -/
theorem issuesSlice_transmit {phase : Phase} {buf : List Byte} (hp : s.seq.phase = phase) (h0 : s.seq.off = 0)
    (hlen : buf.length = phase.bufferLen s.rowBytes s.seq.rows) (hl : 0 < buf.length) :
    IssuesSlice s (s.transmit phase buf) := by
  have hcur : buf.length = s.cur.length := by rw [hlen, cur_length, hp]
  exact ⟨hw, by omega, buf, hcur, transmit_eq_issue hw hp h0 hl⟩

theorem issuesSlice_reset (hp : s.seq.phase = .reset) (h0 : s.seq.off = 0) :
    IssuesSlice s (s.transmit .reset resetBytes) :=
  issuesSlice_transmit hw hp h0 rfl (by decide)

theorem issuesSlice_hdr (hp : s.seq.phase = .hdr) (h0 : s.seq.off = 0) (rowBytes rows : Nat) :
    IssuesSlice s (s.transmit .hdr (headerBytes rowBytes rows)) :=
  issuesSlice_transmit hw hp h0 rfl (by simp [headerBytes])

theorem issuesSlice_body (hp : s.seq.phase = .body) (h0 : s.seq.off = 0)
    (hl : 0 < (s.bandBytes s.seq.y s.seq.rows).length) :
    IssuesSlice s (s.transmit .body (s.bandBytes s.seq.y s.seq.rows)) :=
  issuesSlice_transmit hw hp h0 (bandBytes_length _ _ _) hl

theorem issuesSlice_feed (hp : s.seq.phase = .feed) (h0 : s.seq.off = 0) :
    IssuesSlice s (s.transmit .feed feedBytes) :=
  issuesSlice_transmit hw hp h0 rfl (by decide)

/-- CHUNK inside a buffer is an *issue*. -/
theorem issuesSlice_chunk (hl : s.seq.off < s.cur.length) : IssuesSlice s (s.chunk s.cur) :=
  ⟨hw, hl, s.cur, rfl, chunk_eq_issue hw hl⟩

end

/-- The slice of an *issue* has between 1 and CHUNKSIZE bytes, and its write becomes the outstanding one (R161, R162). -/
theorem history_of_issuesSlice {s t : State} (hi : IssuesSlice s t) (hcs : 1 ≤ s.chunkSize) :
    ∃ bs, t.history = s.history ++ [.write s.seq.nwr bs] ∧ s.seq.wait = .none ∧ t.seq.wait = .write ∧
      t.seq.nwr = s.seq.nwr ∧ 1 ≤ bs.length ∧ bs.length ≤ s.chunkSize := by
  obtain ⟨hw, hl, buf, hlen, rfl⟩ := hi
  rw [issue_eq]
  refine ⟨_, rfl, hw, rfl, rfl, ?_, List.length_take_le _ _⟩
  rw [List.length_take, List.length_drop]
  omega

/-- The chunk pause is none, or a sleep of CHUNKDELAY (R163). -/
theorem pauseChunk_cases (s : State) :
    s.pauseChunk = s ∨ 0 < s.job.chunkDelay.toNat ∧ s.pauseChunk = s.emitSleep s.job.chunkDelay .csleep := by
  unfold State.pauseChunk
  split
  next hd => exact .inr ⟨hd, rfl⟩
  next => exact .inl rfl

/-- The band pause is none, or with banding on a sleep of BANDDELAY (R147). -/
theorem pauseBand_cases (s : State) :
    s.pauseBand = s ∨
      (0 < s.bandRows ∧ 0 < s.job.bandDelay.toNat) ∧ s.pauseBand = s.emitSleep s.job.bandDelay .bsleep := by
  unfold State.pauseBand
  split
  next hd => exact .inr ⟨hd, rfl⟩
  next => exact .inl rfl

/-! ### START -/

/-- The state a START checks: flags clear, JOB latched and its mode resolved (R180, R181, R183). -/
def State.latched (s : State) : State := s.clearFlags.latch.resolveFallback

/-- What a START can do: the turned-away one, the one a check fails, the accepted one (R180). -/
theorem startJob_cases (maxPix : Nat) (s : State) :
    (s.status.busy = true ∧ s.startJob maxPix = s.raise .busyReject) ∨
    (s.status.busy = false ∧ ∃ check, s.startJob maxPix = s.latched.raise (.input check)) ∨
    (s.status.busy = false ∧ checkJob maxPix s.latched.job = none ∧ s.startJob maxPix = s.latched.enterRender) := by
  unfold State.startJob State.latched
  cases hb : s.status.busy with
  | true => simp
  | false =>
    cases hc : checkJob maxPix s.clearFlags.latch.resolveFallback.job with
    | none => simp [hc]
    | some check => exact .inr (.inl ⟨rfl, check, by simp [hc]⟩)

/-- A START during a job is turned away (R208). -/
theorem startJob_of_busy {maxPix : Nat} {s : State} (hb : s.status.busy = true) :
    s.startJob maxPix = s.raise .busyReject := by
  rw [State.startJob, if_pos hb]

/-- What START has done before its checks. -/
theorem latched_eq (s : State) :
    s.latched = { s with
      status := { s.status with
        done := false, err := false, errcode := 0#2, rej := false, fallback := decide (5 ≤ s.cfg.qmode.toNat) }
      errinfo := 0#32
      job := { s.cfg with qmode := if 5 ≤ s.cfg.qmode.toNat then 1#3 else s.cfg.qmode } } := by
  rw [State.latched, resolveFallback_eq]
  rfl

/-- The resolved mode is one of the five (R183). -/
theorem resolved_mode_lt (c : BitVec 3) : (if 5 ≤ c.toNat then 1#3 else c).toNat < 5 := by
  split
  · decide
  · omega

/-! ### What Inv says of a running job -/

theorem busy_of_ne_idle {s : State} (h : Inv s) (hp : s.seq.phase ≠ .idle) : s.status.busy = true :=
  h.status.busyIffActive.2 hp

theorem phase_idle_of_not_busy {s : State} (h : Inv s) (hb : s.status.busy = false) : s.seq.phase = .idle := by
  by_contra hp
  simp [busy_of_ne_idle h hp] at hb

/-- While a job runs neither DONE nor ERR is set (R21). -/
theorem flags_clear_of_busy {s : State} (h : Inv s) (hb : s.status.busy = true) :
    s.status.done = false ∧ s.status.err = false := by
  constructor
  · by_contra hd
    have := (h.status.doneExcludes (by simpa using hd)).1
    simp [hb] at this
  · by_contra he
    have := h.status.errExcludes (by simpa using he)
    simp [hb] at this

/-- SEQ waits for nothing outside the sending phases and GAP, and the timer is idle there (R25, R216). -/
theorem wait_none_of_not_transmitting {s : State} (h : Inv s) (hs : s.seq.phase.sends = false) (hg : s.seq.phase ≠ .gap) :
    s.seq.wait = .none ∧ s.timer = none := by
  have hw : s.seq.wait = .none := by
    cases hw : s.seq.wait with
    | none => rfl
    | write => simp [h.wait.onlyWhileSending (.inl hw)] at hs
    | csleep => simp [h.wait.onlyWhileSending (.inr hw)] at hs
    | bsleep => exact absurd (h.wait.bandPauseOnlyInGap hw) hg
  exact ⟨hw, h.wait.timerIdle (.inl hw)⟩

/-- The band a job stands in is not empty and ends inside the picture (R148). -/
theorem band_of_position {s : State} (h : Inv s) (hp : s.seq.phase = .hdr ∨ s.seq.phase = .body ∨ s.seq.phase = .gap) :
    1 ≤ s.seq.rows ∧ s.seq.y + s.seq.rows ≤ s.height := by
  have hb := busy_of_ne_idle h (by rcases hp with hp | hp | hp <;> simp [hp])
  exact band_inside (h.job.height hb) (h.position.bandLegal hp)

/-! ### Counting the bytes sent -/

/-- The bytes of the bands above row `y`, and of the band `(y, rows)`, are at most those of a picture that holds it. -/
theorem band_bytes_le {rb y rows h : Nat} (h1 : 1 ≤ rows) (hin : y + rows ≤ h) :
    8 + (8 + rb) * y + rb * rows ≤ (8 + rb) * h := by
  have hle : (8 + rb) * (y + rows) ≤ (8 + rb) * h := Nat.mul_le_mul_left _ hin
  have hdist : (8 + rb) * (y + rows) = (8 + rb) * y + 8 * rows + rb * rows := by ring
  omega

theorem picture_bytes_le (s : State) : (8 + s.rowBytes) * s.height ≤ 8200 * 65535 :=
  Nat.mul_le_mul (by have := rowBytes_le s; omega) (height_le s)

/-- The buffer of a legal position is no longer than the largest bitmap (R24). -/
theorem cur_length_le {s : State} (h : s.seq.rows ≤ 65535) : s.cur.length ≤ 8192 * 65535 := by
  have := Nat.mul_le_mul (rowBytes_le s) h
  rw [cur_length]
  cases s.seq.phase <;> simp only [Phase.bufferLen] <;> omega

/-- However far a job has come, its write count lies in NWR's range (R24). -/
theorem nwr_le_of_sends {s : State} (h : Inv s) (hs : s.seq.phase.sends = true) : s.seq.nwr ≤ 4 + 8200 * 65535 := by
  have hn := h.ranges.nwr
  have hoff := h.position.offInBuffer hs
  have hpic := picture_bytes_le s
  rw [cur_length] at hoff
  unfold State.writeBound at hn
  cases hp : s.seq.phase with
  | idle => simp [hp, Phase.sends] at hs
  | render => simp [hp, Phase.sends] at hs
  | gap => simp [hp, Phase.sends] at hs
  | reset => simp only [hp, Phase.bufferLen] at hn hoff; omega
  | feed => simp only [hp, Phase.bufferLen] at hn hoff; omega
  | hdr =>
    obtain ⟨h1, hin⟩ := band_of_position h (.inl hp)
    have := band_bytes_le (rb := s.rowBytes) h1 hin
    simp only [hp, Phase.bufferLen] at hn hoff; omega
  | body =>
    obtain ⟨h1, hin⟩ := band_of_position h (.inr (.inl hp))
    have := band_bytes_le (rb := s.rowBytes) h1 hin
    simp only [hp, Phase.bufferLen] at hn hoff; omega

/-! ### Which fields each part of the invariant looks at -/

section
variable {s t : State} (hjob : t.job = s.job)
include hjob

theorem cur_length_congr (hphase : t.seq.phase = s.seq.phase) (hrows : t.seq.rows = s.seq.rows) :
    t.cur.length = s.cur.length := by
  simp only [cur_length, hphase, hrows, State.rowBytes, State.width, hjob]

theorem waitLegal_congr (hseq : t.seq = s.seq) (htimer : t.timer = s.timer) (h : WaitLegal s) : WaitLegal t := by
  obtain ⟨hsend, hgap, hslice, hidle, hchunk, hband⟩ := h
  have hlen : t.cur.length = s.cur.length := cur_length_congr hjob (by rw [hseq]) (by rw [hseq])
  constructor <;> simp_all [State.bandRows]

/-- In the same phase and band a position is legal where OFF stays inside the buffer. -/
theorem positionLegal_congr (hphase : t.seq.phase = s.seq.phase) (hy : t.seq.y = s.seq.y) (hrows : t.seq.rows = s.seq.rows)
    (hoff : t.seq.phase.sends = true → t.seq.off ≤ s.cur.length) (h : PositionLegal s) : PositionLegal t := by
  obtain ⟨-, hreset, hband, hgap⟩ := h
  have hlen : t.cur.length = s.cur.length := cur_length_congr hjob hphase hrows
  constructor <;> simp_all [State.bands, State.bandRows, State.height]

theorem rangesKept_congr (hseq : t.seq = s.seq) (h : RangesKept s) : RangesKept t := by
  have hbound : t.writeBound = s.writeBound := by
    simp only [State.writeBound, hseq, State.rowBytes, State.width, State.height, hjob]
  obtain ⟨hy, hrows, hoff, hnwr⟩ := h
  constructor <;> simpa [hseq, hbound]

end

/-- JOB stays legal with the same JOB, where BUSY does not rise. -/
theorem jobLegal_congr {s t : State} (hjob : t.job = s.job) (hbusy : t.status.busy = true → s.status.busy = true)
    (h : JobLegal s) : JobLegal t := by
  obtain ⟨hmode, hw, hh, hcap, hcs⟩ := h
  constructor <;> simp_all [State.width, State.height, State.chunkSize]

end Sys2Proof.Machine
end

section
/-! SUPPORT. Every step keeps the invariant: one lemma per kind of move, then the cases of `Moves`. -/

namespace Sys2Proof.Machine

open Sys2Proof

/-! ### Moves that leave the position -/

/-- A move that keeps STATUS but for REJ, JOB, SEQ and the timer, and canonical memories, keeps the invariant. -/
theorem inv_of_same_position {s t : State} (h : Inv s) (hstatus : ∃ r, t.status = { s.status with rej := r })
    (hjob : t.job = s.job) (hseq : t.seq = s.seq) (htimer : t.timer = s.timer) (hmem : MemoriesCanonical t)
    (hstage : t.seq.phase ≠ .render → t.stage = .luma) : Inv t where
  memories := hmem
  status := by
    obtain ⟨hbusy, hcode, herr, hdone, hexcl⟩ := h.status
    obtain ⟨r, hr⟩ := hstatus
    constructor <;> simpa [hr, hseq]
  job := jobLegal_congr hjob (by obtain ⟨r, hr⟩ := hstatus; rw [hr]; exact id) h.job
  wait := waitLegal_congr hjob hseq htimer h.wait
  position :=
    positionLegal_congr hjob (by rw [hseq]) (by rw [hseq]) (by rw [hseq])
      (by rw [hseq]; exact h.position.offInBuffer) h.position
  ranges := rangesKept_congr hjob hseq h.ranges
  stage := ⟨hstage⟩

theorem inv_popTurn {s : State} (h : Inv s) : Inv s.popTurn :=
  inv_of_same_position h ⟨_, rfl⟩ rfl rfl rfl ⟨h.memories.pix, h.memories.lum, h.memories.pk⟩ h.stage.outside

/-- A stage of RENDER that writes LUM. -/
theorem inv_renderStage {s : State} (h : Inv s) (hp : s.seq.phase = .render) {lum : Mem LumNum}
    (hlum : Mem.wf lum = true) (st : Stage) : Inv { s with lum := lum, stage := st } :=
  inv_of_same_position h ⟨_, rfl⟩ rfl rfl rfl ⟨h.memories.pix, hlum, h.memories.pk⟩ fun hne => absurd hp hne

/-- A host access other than START. -/
theorem inv_access {a : HostAction} {s t : State} (h : Inv s) (ha : hostAccess Params.adopted.maxPix a s = .next t) :
    Inv t := by
  obtain ⟨ht, hpix⟩ := hostAccess_next ha
  have hmem : MemoriesCanonical t :=
    ⟨hpix h.memories.pix, by rw [ht]; exact h.memories.lum, by rw [ht]; exact h.memories.pk⟩
  refine inv_of_same_position h ⟨s.status.rej, ?_⟩ ?_ ?_ ?_ hmem ?_ <;> rw [ht]
  exact h.stage.outside

/-! ### Moves inside the transmit part -/

/-- A move of SEQ, LINK or TIMER from one position of the transmit part to another; only SEQ, the timer and the history
change. -/
theorem inv_of_transmitting {s : State} {q : Seq} {tm : Option Half} {l : List Event} (h : Inv s)
    (hs : s.seq.phase.sends = true ∨ s.seq.phase = .gap) (hq : q.phase.sends = true ∨ q.phase = .gap)
    (hwait : WaitLegal { s with seq := q, timer := tm, history := l })
    (hpos : PositionLegal { s with seq := q, timer := tm, history := l })
    (hrange : RangesKept { s with seq := q, timer := tm, history := l }) :
    Inv { s with seq := q, timer := tm, history := l } where
  memories := ⟨h.memories.pix, h.memories.lum, h.memories.pk⟩
  status := by
    obtain ⟨-, hcode, herr, hdone, hexcl⟩ := h.status
    have hbusy := busy_of_ne_idle h (ne_idle_of_transmits hs)
    exact ⟨by simp [hbusy, ne_idle_of_transmits hq], hcode, herr, hdone, hexcl⟩
  job := jobLegal_congr (s := s) rfl id h.job
  wait := hwait
  position := hpos
  ranges := hrange
  stage := ⟨fun _ => h.stage.outside (ne_render_of_transmits hs)⟩

/-- With nothing outstanding and the timer idle SEQ's waiting is legal anywhere. -/
theorem waitLegal_none {s : State} (hw : s.seq.wait = .none) (ht : s.timer = none) : WaitLegal s := by
  constructor <;> simp [hw, ht]

/-- A move of the transmit part that changes no more of SEQ than what it waits for. -/
theorem inv_setWait {s : State} {w : Wait} {tm : Option Half} {l : List Event} (h : Inv s)
    (hs : s.seq.phase.sends = true ∨ s.seq.phase = .gap)
    (hwait : WaitLegal { s with seq := { s.seq with wait := w }, timer := tm, history := l }) :
    Inv { s with seq := { s.seq with wait := w }, timer := tm, history := l } :=
  inv_of_transmitting h hs hs hwait
    (positionLegal_congr (s := s) rfl rfl rfl rfl h.position.offInBuffer h.position)
    ⟨h.ranges.y, h.ranges.rows, h.ranges.off, h.ranges.nwr⟩

/-- *issue*: a write becomes the outstanding one (R166). -/
theorem inv_issue {s t : State} (h : Inv s) (hi : IssuesSlice s t) : Inv t := by
  obtain ⟨hw, hl, buf, -, rfl⟩ := hi
  have hs := sends_of_off_lt hl
  have ht := h.wait.timerIdle (.inl hw)
  rw [issue_eq]
  refine inv_setWait h (.inl hs) ?_
  constructor <;> simp [hs, ht]
  exact hl.trans_eq (cur_length_congr rfl rfl rfl).symm

/-- *wake* ends the pause and idles the timer (R169). -/
theorem inv_wake {s : State} (h : Inv s) (hw : s.seq.wait = .csleep ∨ s.seq.wait = .bsleep) : Inv s.wake := by
  have hs : s.seq.phase.sends = true ∨ s.seq.phase = .gap :=
    hw.imp (fun hc => h.wait.onlyWhileSending (.inr hc)) h.wait.bandPauseOnlyInGap
  exact inv_setWait (tm := none) (l := s.history) h hs (waitLegal_none rfl rfl)

/-- The chunk pause (R163). -/
theorem inv_pauseChunk {s : State} (h : Inv s) (hs : s.seq.phase.sends = true) : Inv s.pauseChunk := by
  rcases pauseChunk_cases s with he | ⟨hd, he⟩ <;> rw [he]
  · exact h
  · refine inv_setWait h (.inl hs) ?_
    constructor <;> simp [hs]
    exact hd

/-- The band pause (R147). -/
theorem inv_pauseBand {s : State} (h : Inv s) (hp : s.seq.phase = .gap) : Inv s.pauseBand := by
  rcases pauseBand_cases s with he | ⟨⟨hb, hd⟩, he⟩ <;> rw [he]
  · exact h
  · refine inv_setWait h (.inr hp) ?_
    constructor <;> simp [hp]
    exact ⟨hd, hb⟩

/-- While a buffer is sent the bound on completed writes grows with OFF (R24). -/
theorem writeBound_off {s t : State} {n : Nat} (hs : s.seq.phase.sends = true) (hjob : t.job = s.job)
    (hphase : t.seq.phase = s.seq.phase) (hy : t.seq.y = s.seq.y) (hoff : t.seq.off = s.seq.off + n) :
    t.writeBound = s.writeBound + n := by
  simp only [State.writeBound, hphase, hy, hoff, State.rowBytes, State.width, State.height, hjob]
  cases hp : s.seq.phase <;> simp [hp, Phase.sends, Nat.add_assoc] at hs ⊢

/-- *complete-ok* (R167): a slice of at least one byte counts as one write. -/
theorem inv_sliceSent {s : State} (h : Inv s) (hw : s.seq.wait = .write) : Inv s.sliceSent := by
  have hs := h.wait.onlyWhileSending (.inl hw)
  have hl := h.wait.sliceOutstanding hw
  have ht := h.wait.timerIdle (.inr hw)
  have hcs := h.job.chunkSize (busy_of_ne_idle h (ne_idle_of_transmits (.inl hs)))
  have hslice : 1 ≤ s.sliceLen s.cur.length ∧ s.seq.off + s.sliceLen s.cur.length ≤ s.cur.length := by
    unfold State.sliceLen
    omega
  refine inv_of_transmitting (tm := s.timer) (l := s.history) h (.inl hs) (.inl hs) (waitLegal_none rfl ht) ?_ ?_
  · exact positionLegal_congr (s := s) rfl rfl rfl rfl (fun _ => hslice.2) h.position
  · refine ⟨h.ranges.y, h.ranges.rows, hslice.2.trans (cur_length_le h.ranges.rows), ?_⟩
    exact (Nat.add_le_add h.ranges.nwr hslice.1).trans_eq (writeBound_off (t := s.sliceSent) hs rfl rfl rfl rfl).symm

/-! ### *advance* -/

section
variable {s : State} (h : Inv s) (hw : s.seq.wait = .none)
include h hw

/-- A move of SEQ with nothing outstanding, to a position in which nothing is outstanding either. -/
theorem inv_of_advance {q : Seq} (hs : s.seq.phase.sends = true ∨ s.seq.phase = .gap)
    (hq : q.phase.sends = true ∨ q.phase = .gap) (hqw : q.wait = .none) (hpos : PositionLegal { s with seq := q })
    (hrange : RangesKept { s with seq := q }) : Inv { s with seq := q } :=
  inv_of_transmitting h hs hq (waitLegal_none hqw (h.wait.timerIdle (.inl hw))) hpos hrange

/-- Out of RESET: the first band of the partition (R171). -/
theorem inv_toFirstBand (hp : s.seq.phase = .reset) (hl : s.seq.off = s.cur.length) : Inv s.toFirstBand := by
  have hheight := h.job.height (busy_of_ne_idle h (by simp [hp]))
  have hband : (0, s.rowsAt 0) ∈ s.bands := by
    rw [State.bands, bandsOf_first _ hheight]
    exact List.mem_cons_self
  have hin := band_inside hheight hband
  have hle := height_le s
  refine inv_of_advance h hw (.inl (by simp [hp, Phase.sends])) (.inl rfl) hw ?_ ?_
  · exact ⟨by simp, by simp, fun _ => hband, by simp⟩
  · have hn := h.ranges.nwr
    rw [cur_length] at hl
    simp only [State.writeBound, hp, hl, Phase.bufferLen] at hn
    exact ⟨by simp, by simp only; omega, by simp, by simpa [State.writeBound] using hn⟩

/-- Out of HDR: the body of the same band. -/
theorem inv_toBody (hp : s.seq.phase = .hdr) (hl : s.seq.off = s.cur.length) : Inv s.toBody := by
  have hn := h.ranges.nwr
  rw [cur_length] at hl
  simp only [State.writeBound, hp, hl, Phase.bufferLen] at hn
  refine inv_of_advance h hw (.inl (by simp [hp, Phase.sends])) (.inl rfl) hw ?_ ?_
  · exact ⟨by simp, by simp, fun _ => h.position.bandLegal (.inl hp), by simp⟩
  · refine ⟨h.ranges.y, h.ranges.rows, by simp, hn.trans ?_⟩
    simp only [State.writeBound]
    change _ ≤ 10 + (8 + s.rowBytes) * s.seq.y + 0
    omega

/-- Out of BODY with banding on: the band pause. -/
theorem inv_toGap (hp : s.seq.phase = .body) (hl : s.seq.off = s.cur.length) (hb : 0 < s.bandRows) : Inv s.toGap := by
  have hn := h.ranges.nwr
  obtain ⟨hrows, -⟩ := band_of_position h (.inr (.inl hp))
  have hbytes := band_bytes_le (rb := s.rowBytes) hrows (le_refl (s.seq.y + s.seq.rows))
  rw [cur_length] at hl
  simp only [State.writeBound, hp, hl, Phase.bufferLen] at hn
  refine inv_of_advance h hw (.inl (by simp [hp, Phase.sends])) (.inr rfl) hw ?_ ?_
  · exact ⟨by simp [Phase.sends], by simp, fun _ => h.position.bandLegal (.inr (.inl hp)), fun _ => hb⟩
  · refine ⟨h.ranges.y, h.ranges.rows, h.ranges.off, hn.trans ?_⟩
    change _ ≤ 2 + (8 + s.rowBytes) * (s.seq.y + s.seq.rows)
    omega

/-- Out of GAP: the next band of the partition, which starts where this one ends (R141). -/
theorem inv_toNextBand (hp : s.seq.phase = .gap) (hy : s.seq.y + s.bandRows < s.height) : Inv s.toNextBand := by
  have hn := h.ranges.nwr
  have hle := height_le s
  have hb := h.position.gapIsBanded hp
  obtain ⟨i, -, hi⟩ := (mem_bandsOf hb).1 (h.position.bandLegal (.inr (.inr hp)))
  obtain ⟨hyi, hrows⟩ := Prod.mk.inj hi
  have hnext : (i + 1) * s.bandRows = s.seq.y + s.bandRows := by rw [hyi]; ring
  have hfull : s.seq.rows = s.bandRows := by omega
  simp only [State.writeBound, hp, hfull] at hn
  refine inv_of_advance h hw (.inr hp) (.inl rfl) hw ?_ ?_
  · refine ⟨by simp, by simp, fun _ => (mem_bandsOf hb).2 ⟨i + 1, ?_, ?_⟩, by simp⟩
    · exact hnext.trans_lt hy
    · exact congrArg (fun y => (y, min s.bandRows (s.height - y))) hnext.symm
  · exact ⟨by simp only; omega, by simp only; omega, by simp, hn⟩

/-- To the Feed command, after the last band. -/
theorem inv_toFeed (hs : s.seq.phase.sends = true ∨ s.seq.phase = .gap)
    (hn : s.seq.nwr ≤ 2 + (8 + s.rowBytes) * s.height) : Inv s.toFeed :=
  inv_of_advance h hw hs (.inl rfl) hw
    ⟨by simp, by simp, by simp, by simp⟩ ⟨h.ranges.y, h.ranges.rows, by simp, hn⟩

/-- Out of BODY with banding off: the one band was the whole picture. -/
theorem inv_toFeed_of_body (hp : s.seq.phase = .body) (hl : s.seq.off = s.cur.length) : Inv s.toFeed := by
  have hn := h.ranges.nwr
  obtain ⟨hrows, hin⟩ := band_of_position h (.inr (.inl hp))
  have hbytes := band_bytes_le (rb := s.rowBytes) hrows hin
  rw [cur_length] at hl
  simp only [State.writeBound, hp, hl, Phase.bufferLen] at hn
  exact inv_toFeed h hw (.inl (by simp [hp, Phase.sends])) (by omega)

/-- Out of GAP after the last band. -/
theorem inv_toFeed_of_gap (hp : s.seq.phase = .gap) : Inv s.toFeed := by
  have hn := h.ranges.nwr
  have hbytes := Nat.mul_le_mul_left (8 + s.rowBytes) (band_of_position h (.inr (.inr hp))).2
  simp only [State.writeBound, hp] at hn
  exact inv_toFeed h hw (.inr hp) (by omega)

end

/-! ### The end and the beginning of a job -/

/-- Where no job runs the position asks for nothing but NWR's range. -/
theorem inv_of_idle {s : State} (hmem : MemoriesCanonical s) (hstatus : StatusConsistent s) (hmode : s.job.qmode.toNat < 5)
    (hp : s.seq.phase = .idle) (hw : s.seq.wait = .none) (ht : s.timer = none) (hrange : RangesKept s)
    (hstage : s.stage = .luma) : Inv s where
  memories := hmem
  status := hstatus
  job := by
    have hbusy : s.status.busy ≠ true := fun hb => hstatus.busyIffActive.1 hb hp
    exact ⟨hmode, fun hb => absurd hb hbusy, fun hb => absurd hb hbusy, fun hb => absurd hb hbusy,
      fun hb => absurd hb hbusy⟩
  wait := waitLegal_none hw ht
  position := by constructor <;> simp [hp, Phase.sends]
  ranges := hrange
  stage := ⟨fun _ => hstage⟩

/-- Out of FEED: the job is done (R187). -/
theorem inv_finish {s : State} (h : Inv s) (hp : s.seq.phase = .feed) (hw : s.seq.wait = .none) : Inv s.finish := by
  have hs : s.seq.phase.sends = true := by simp [hp, Phase.sends]
  have hn := nwr_le_of_sends h hs
  obtain ⟨-, herr⟩ := flags_clear_of_busy h (busy_of_ne_idle h (ne_idle_of_transmits (.inl hs)))
  refine inv_of_idle ⟨h.memories.pix, h.memories.lum, h.memories.pk⟩ ?_ h.job.mode rfl hw (h.wait.timerIdle (.inl hw))
    ⟨h.ranges.y, h.ranges.rows, h.ranges.off, hn⟩ (h.stage.outside (by simp [hp]))
  exact ⟨by simp, h.status.codeLegal, h.status.errIffCode, fun _ => ⟨rfl, herr⟩, fun _ => rfl⟩

/-- *complete-fail*: the job ends in TransportError (R168, R207). -/
theorem inv_transport {s : State} (h : Inv s) (hw : s.seq.wait = .write) : Inv (s.raise .transport) := by
  have hs := h.wait.onlyWhileSending (.inl hw)
  have hn := nwr_le_of_sends h hs
  obtain ⟨hdone, -⟩ := flags_clear_of_busy h (busy_of_ne_idle h (ne_idle_of_transmits (.inl hs)))
  refine inv_of_idle ⟨h.memories.pix, h.memories.lum, h.memories.pk⟩ ?_ h.job.mode rfl rfl (h.wait.timerIdle (.inr hw))
    ⟨h.ranges.y, h.ranges.rows, h.ranges.off, hn⟩
    (h.stage.outside (ne_render_of_transmits (.inl hs)))
  constructor <;> simp [hdone]

theorem inv_hardwareReset (s : State) : Inv s.hardwareReset := by
  refine inv_of_idle ⟨rfl, rfl, rfl⟩ ?_ (by simp [Cfg.reset]) rfl rfl rfl ?_ rfl
  · constructor <;> simp [Status.reset, Seq.reset]
  · constructor <;> simp [Seq.reset]

/-- The end of RENDER: the transmit part begins (R185). -/
theorem inv_packStage {s : State} (h : Inv s) (hp : s.seq.phase = .render) : Inv (packStage s) where
  memories := ⟨h.memories.pix, h.memories.lum, wf_packGrid _ _ _ _ h.memories.pk⟩
  status := by
    obtain ⟨-, hcode, herr, hdone, hexcl⟩ := h.status
    exact ⟨by simp [packStage, busy_of_ne_idle h (by simp [hp])], hcode, herr, hdone, hexcl⟩
  job := jobLegal_congr (s := s) rfl id h.job
  wait := waitLegal_none rfl (wait_none_of_not_transmitting h (by simp [hp, Phase.sends]) (by simp [hp])).2
  position := ⟨by simp [packStage], by simp [packStage], by simp [packStage], by simp [packStage]⟩
  ranges := ⟨by simp [packStage], by simp [packStage], by simp [packStage], by simp [packStage]⟩
  stage := ⟨fun _ => rfl⟩

/-! ### START -/

/-- A START keeps the invariant, turned away, failed or accepted. -/
theorem inv_startJob {s : State} (h : Inv s) : Inv (s.startJob Params.adopted.maxPix) := by
  have hmem : MemoriesCanonical s := h.memories
  rcases startJob_cases Params.adopted.maxPix s with ⟨-, he⟩ | ⟨hb, check, he⟩ | ⟨hb, hc, he⟩ <;> rw [he]
  · exact inv_of_same_position h ⟨_, rfl⟩ rfl rfl rfl ⟨hmem.pix, hmem.lum, hmem.pk⟩ h.stage.outside
  · have hp := phase_idle_of_not_busy h hb
    obtain ⟨hw, ht⟩ := wait_none_of_not_transmitting h (by simp [hp, Phase.sends]) (by simp [hp])
    have hrange := h.ranges.nwr
    rw [latched_eq]
    have hst := h.stage.outside (by simp [hp])
    refine inv_of_idle ⟨hmem.pix, hmem.lum, hmem.pk⟩ ?_ (resolved_mode_lt _) hp hw ht ?_ hst
    · constructor <;> simp [hp, hb]
    · exact ⟨h.ranges.y, h.ranges.rows, h.ranges.off, by simpa [State.writeBound, hp] using hrange⟩
  · have hp := phase_idle_of_not_busy h hb
    obtain ⟨hw, ht⟩ := wait_none_of_not_transmitting h (by simp [hp, Phase.sends]) (by simp [hp])
    obtain ⟨hc1, hc2, hc3, hc4⟩ := checkJob_eq_none.1 hc
    have hrange := h.ranges.nwr
    rw [latched_eq] at hc1 hc2 hc3 hc4 ⊢
    simp only [State.writeBound, hp] at hrange
    exact {
      memories := ⟨hmem.pix, hmem.lum, hmem.pk⟩
      status := by constructor <;> simp
      job := ⟨resolved_mode_lt _, fun _ => hc1, fun _ => hc2, fun _ => hc3, fun _ => hc4⟩
      wait := waitLegal_none hw ht
      position := by constructor <;> simp [Phase.sends]
      ranges := ⟨h.ranges.y, h.ranges.rows, h.ranges.off, hrange⟩
      stage := ⟨fun _ => rfl⟩ }

/-! ### The step -/

/-- Every move keeps the invariant. -/
theorem inv_of_moves {tn : Turn} {u t : State} (h : Inv u) (hm : Moves tn u t) : Inv t := by
  have hlum := h.memories.lum
  cases hm with
  | stay => exact h
  | luma _ hp => exact inv_renderStage h hp (wf_lumaGrid _ _ _ _ _ hlum) _
  | tone _ hp => exact inv_renderStage h hp (wf_toneGrid _ _ _ _ _ _ hlum) _
  | thresh _ hp => exact inv_renderStage h hp (wf_mapGrid _ _ _ _ _ hlum) _
  | fs _ hp => exact inv_renderStage h hp (wf_fsGrid _ _ _ _ _ hlum) _
  | atk _ hp => exact inv_renderStage h hp (wf_atkGrid _ _ _ _ _ hlum) _
  | ord4 _ hp => exact inv_renderStage h hp (wf_mapGrid _ _ _ _ _ hlum) _
  | ord8 _ hp => exact inv_renderStage h hp (wf_mapGrid _ _ _ _ _ hlum) _
  | reserved _ hp hs hq => exact absurd h.job.mode (by omega)
  | pack _ hp => exact inv_packStage h hp
  | issueReset _ hp hw h0 => exact inv_issue h (issuesSlice_reset hw hp h0)
  | issueHdr _ hp hw h0 => exact inv_issue h (issuesSlice_hdr hw hp h0 _ _)
  | issueBody _ hp hw h0 hl => exact inv_issue h (issuesSlice_body hw hp h0 hl)
  | issueFeed _ hp hw h0 => exact inv_issue h (issuesSlice_feed hw hp h0)
  | issueMore _ hw h0 hl => exact inv_issue h (issuesSlice_chunk hw hl)
  | advReset _ hp hw hl => exact inv_toFirstBand h hw hp hl
  | advHdr _ hp hw hl => exact inv_toBody h hw hp hl
  | advBodyPlain _ hp hw hl hb => exact inv_toFeed_of_body h hw hp hl
  | advBodyBanded _ hp hw hl hb => exact inv_pauseBand (inv_toGap h hw hp hl hb) rfl
  | advGapNext _ hp hw hy => exact inv_toNextBand h hw hp hy
  | advGapLast _ hp hw hy => exact inv_toFeed_of_gap h hw hp
  | advFeed _ hp hw hl => exact inv_finish h hp hw
  | completeOk _ hw => exact inv_pauseChunk (inv_sliceSent h hw) (h.wait.onlyWhileSending (.inl hw))
  | completeFail _ hw => exact inv_transport h hw
  | wake _ hw => exact inv_wake h hw
  | start => exact inv_startJob h
  | access a _ _ ha hacc => exact inv_access h hacc
  | reset => exact inv_hardwareReset u

/-- Settles O3, by cases on the moves. -/
theorem stepKeepsInvariant : Obligations.StepKeepsInvariant :=
  fun _ _ h hstep => inv_of_moves (inv_popTurn h) (step_moves hstep)

end Sys2Proof.Machine
end

section
/-! SUPPORT. The rules of single steps that the invariant gives: what a step appends to the history, how SEQ moves, what changes
JOB. -/

namespace Sys2Proof.Machine

open Sys2Proof

/-! ### The history -/

/-- A START emits nothing. -/
theorem startJob_history (maxPix : Nat) (s : State) : (s.startJob maxPix).history = s.history := by
  rcases startJob_cases maxPix s with ⟨-, he⟩ | ⟨-, check, he⟩ | ⟨-, -, he⟩ <;> rw [he]
  · exact raise_busyReject_history s
  · rw [raise_input_history, latched_eq]
  · rw [enterRender_history, latched_eq]

/-- What a move may append to the history: nothing, the one write that is then outstanding, a sleep on its way into a pause, or
the record of a failed write (R25, R162). -/
def AppendsSerially (s t : State) : Prop :=
  t.history = s.history ∨
  (∃ bs, t.history = s.history ++ [.write s.seq.nwr bs] ∧ s.seq.wait = .none ∧ t.seq.wait = .write ∧
    t.seq.nwr = s.seq.nwr ∧ 1 ≤ bs.length ∧ bs.length ≤ s.chunkSize) ∨
  (∃ ms, t.history = s.history ++ [.sleep ms] ∧ t.timer = some ms ∧
    ((s.seq.wait = .write ∧ t.seq.wait = .csleep ∧ t.seq.nwr = s.seq.nwr + 1) ∨
      (s.seq.wait = .none ∧ t.seq.wait = .bsleep ∧ t.seq.nwr = s.seq.nwr))) ∨
  (t.history = s.history ++ [.failed s.seq.nwr] ∧ s.seq.wait = .write ∧ t.seq.phase = .idle)

theorem appendsSerially_of_moves {tn : Turn} {u t : State} (h : Inv u) (hm : Moves tn u t) : AppendsSerially u t := by
  have hissue : IssuesSlice u t → AppendsSerially u t := fun hi => by
    have hs := sends_of_off_lt hi.2.1
    have hbusy := busy_of_ne_idle h (ne_idle_of_transmits (.inl hs))
    exact .inr (.inl (history_of_issuesSlice hi (h.job.chunkSize hbusy)))
  cases hm with
  | issueReset _ hp hw h0 => exact hissue (issuesSlice_reset hw hp h0)
  | issueHdr _ hp hw h0 => exact hissue (issuesSlice_hdr hw hp h0 _ _)
  | issueBody _ hp hw h0 hl => exact hissue (issuesSlice_body hw hp h0 hl)
  | issueFeed _ hp hw h0 => exact hissue (issuesSlice_feed hw hp h0)
  | issueMore _ hw h0 hl => exact hissue (issuesSlice_chunk hw hl)
  | advBodyBanded _ hp hw hl hb =>
    rcases pauseBand_cases u.toGap with he | ⟨-, he⟩ <;> rw [he]
    · exact .inl rfl
    · exact .inr (.inr (.inl ⟨_, rfl, rfl, .inr ⟨hw, rfl, rfl⟩⟩))
  | completeOk _ hw =>
    rcases pauseChunk_cases u.sliceSent with he | ⟨-, he⟩ <;> rw [he]
    · exact .inl rfl
    · exact .inr (.inr (.inl ⟨_, rfl, rfl, .inl ⟨hw, rfl, rfl⟩⟩))
  | completeFail _ hw => exact .inr (.inr (.inr ⟨rfl, hw, rfl⟩))
  | start => exact .inl (startJob_history _ _)
  | access a _ _ ha hacc => exact .inl (by rw [(hostAccess_next hacc).1])
  | _ => exact .inl rfl

/-- Settles O52, by cases on the moves: only an *issue* hands a write over. -/
theorem writesAreSerialized : Obligations.WritesAreSerialized :=
  fun s _ h hstep => appendsSerially_of_moves (u := s.popTurn) (inv_popTurn h) (step_moves hstep)

/-! ### The position -/

theorem notBefore_of_off_le {a b : Seq} (hphase : b.phase = a.phase) (hy : b.y = a.y) (hoff : a.off ≤ b.off) :
    NotBefore a b := by
  rw [NotBefore, hphase, hy]
  exact .inr ⟨rfl, .inr ⟨rfl, .inr ⟨rfl, hoff⟩⟩⟩

theorem notBefore_of_part_lt {a b : Seq} (hpart : a.phase.part < b.phase.part) : NotBefore a b := .inl hpart

theorem notBefore_refl (a : Seq) : NotBefore a a := notBefore_of_off_le rfl rfl le_rfl

theorem notBefore_of_inBand_lt {a b : Seq} (hpart : a.phase.part = b.phase.part) (hy : a.y = b.y)
    (hin : a.phase.inBand < b.phase.inBand) : NotBefore a b :=
  .inr ⟨hpart, .inr ⟨hy, .inl hin⟩⟩

/-- In the transmit part a move that leaves the job running leaves SEQ no earlier than it was (R24). -/
theorem notBefore_of_moves {tn : Turn} {u t : State} (h : Inv u) (hs : u.seq.phase.sends = true ∨ u.seq.phase = .gap)
    (hbusy : t.status.busy = true) (hm : Moves tn u t) : NotBefore u.seq t.seq := by
  have hrender := ne_render_of_transmits hs
  have hissue : IssuesSlice u t → NotBefore u.seq t.seq := by
    rintro ⟨-, -, buf, -, rfl⟩
    rw [issue_eq]
    exact notBefore_of_off_le rfl rfl le_rfl
  cases hm with
  | stay => exact notBefore_refl _
  | luma _ hp | tone _ hp | thresh _ hp | fs _ hp | atk _ hp | ord4 _ hp | ord8 _ hp | reserved _ hp | pack _ hp =>
    exact absurd hp hrender
  | issueReset _ hp hw h0 => exact hissue (issuesSlice_reset hw hp h0)
  | issueHdr _ hp hw h0 => exact hissue (issuesSlice_hdr hw hp h0 _ _)
  | issueBody _ hp hw h0 hl => exact hissue (issuesSlice_body hw hp h0 hl)
  | issueFeed _ hp hw h0 => exact hissue (issuesSlice_feed hw hp h0)
  | issueMore _ hw h0 hl => exact hissue (issuesSlice_chunk hw hl)
  | advReset _ hp => exact notBefore_of_part_lt (by simp [hp, Phase.part])
  | advHdr _ hp => exact notBefore_of_inBand_lt (by simp [hp, Phase.part]) rfl (by simp [hp, Phase.inBand])
  | advBodyPlain _ hp => exact notBefore_of_part_lt (by simp [hp, Phase.part])
  | advBodyBanded _ hp =>
    have hseq : u.toGap.pauseBand.seq.phase = .gap ∧ u.toGap.pauseBand.seq.y = u.seq.y := by
      rcases pauseBand_cases u.toGap with he | ⟨-, he⟩ <;> rw [he] <;> exact ⟨rfl, rfl⟩
    exact notBefore_of_inBand_lt (by simp [hp, hseq.1, Phase.part]) hseq.2.symm (by simp [hp, hseq.1, Phase.inBand])
  | advGapNext _ hp =>
    have hb := h.position.gapIsBanded hp
    exact .inr ⟨by simp [hp, Phase.part], .inl (by simpa using hb)⟩
  | advGapLast _ hp => exact notBefore_of_part_lt (by simp [hp, Phase.part])
  | advFeed => simp at hbusy
  | completeOk =>
    rcases pauseChunk_cases u.sliceSent with he | ⟨-, he⟩ <;> rw [he] <;>
      exact notBefore_of_off_le rfl rfl (Nat.le_add_right _ _)
  | completeFail => simp at hbusy
  | wake => exact notBefore_of_off_le rfl rfl le_rfl
  | start =>
    rw [startJob_of_busy (busy_of_ne_idle h (ne_idle_of_transmits hs))]
    exact notBefore_refl _
  | access a _ _ ha hacc =>
    rw [(hostAccess_next hacc).1]
    exact notBefore_refl _
  | reset => simp [Status.reset] at hbusy

/-- Settles O58, by cases on the moves. -/
theorem sequencerNeverMovesBack : Obligations.SequencerNeverMovesBack :=
  fun s _ h hs hstep hbusy => notBefore_of_moves (u := s.popTurn) (inv_popTurn h) hs hbusy (step_moves hstep)

/-! ### JOB -/

/-- A move keeps JOB, or is a reset, or a START that found BUSY clear (R23). -/
theorem job_of_moves {tn : Turn} {u t : State} (h : Inv u) (hm : Moves tn u t) :
    t.job = u.job ∨ tn = .reset ∨ (tn = .host (.writeCtrl 1#1) ∧ u.status.busy = false) := by
  have hissue : IssuesSlice u t → t.job = u.job := by
    rintro ⟨-, -, buf, -, rfl⟩
    rw [issue_eq]
  cases hm with
  | reserved _ hp hs hq => exact absurd h.job.mode (by omega)
  | issueReset _ hp hw h0 => exact .inl <| hissue (issuesSlice_reset hw hp h0)
  | issueHdr _ hp hw h0 => exact .inl <| hissue (issuesSlice_hdr hw hp h0 _ _)
  | issueBody _ hp hw h0 hl => exact .inl <| hissue (issuesSlice_body hw hp h0 hl)
  | issueFeed _ hp hw h0 => exact .inl <| hissue (issuesSlice_feed hw hp h0)
  | issueMore _ hw h0 hl => exact .inl <| hissue (issuesSlice_chunk hw hl)
  | advBodyBanded =>
    rcases pauseBand_cases u.toGap with he | ⟨-, he⟩ <;> rw [he] <;> exact .inl rfl
  | completeOk =>
    rcases pauseChunk_cases u.sliceSent with he | ⟨-, he⟩ <;> rw [he] <;> exact .inl rfl
  | start =>
    cases hb : u.status.busy with
    | false => exact .inr (.inr ⟨rfl, rfl⟩)
    | true =>
      rw [startJob_of_busy hb]
      exact .inl rfl
  | access a _ _ ha hacc => exact .inl (by rw [(hostAccess_next hacc).1])
  | reset => exact .inr (.inl rfl)
  | _ => exact .inl rfl

/-- Settles O60, by cases on the moves. -/
theorem onlyStartChangesJob : Obligations.OnlyStartChangesJob :=
  fun _ _ h hstep hne => (job_of_moves (inv_popTurn h) (step_moves hstep)).resolve_left hne

end Sys2Proof.Machine
end

section
/-! SUPPORT. The rules of the host's port and of the sequencer's own turn: which operation or access a step is, and what each
access answers. -/

namespace Sys2Proof.Machine

open Sys2Proof

/-! ### Whose turn it is -/

section
variable (s : State) (rest : List Turn)

/-- SEQ's turn. -/
theorem step_seq : step { s with turns := .seq :: rest } = (seqTurn { s with turns := rest }).outcome := rfl

/-- LINK's turn. -/
theorem step_link (a : LinkAnswer) :
    step { s with turns := .link a :: rest } = (linkTurn a { s with turns := rest }).outcome := rfl

/-- The host's write of 1 to CTRL is START (R20). -/
theorem step_start : step { s with turns := .host (.writeCtrl 1#1) :: rest } = exec .start { s with turns := rest } := rfl

/-- Every other host action is an access. -/
theorem step_hostAccess (a : HostAction) (ha : a ≠ .writeCtrl 1#1) :
    step { s with turns := .host a :: rest } = hostAccess Params.adopted.maxPix a { s with turns := rest } := by
  cases a with
  | writeCtrl v =>
    have hv : v ≠ 1#1 := fun he => ha (by rw [he])
    have hfetch : fetch { s with turns := .host (.writeCtrl v) :: rest } =
        .quiet (hostAccess Params.adopted.maxPix (.writeCtrl v) { s with turns := rest }) := by
      simp [fetch, turnStep, hostTurn, decodeCtrl, hv, State.nextTurn, State.popTurn]
    exact step_of_quiet hfetch
  | _ => rfl

/-- With no move listed it is SEQ's turn (log 1). -/
theorem step_of_no_turns {s : State} (h : s.turns = []) : step s = step { s with turns := [.seq] } := by
  have hnext : s.nextTurn = .seq := by simp [State.nextTurn, h]
  have hpop : { s with turns := [] } = s := by rw [← h]
  rw [step_seq, hpop, step, fetch, hnext, popTurn_of_nil h]
  rfl

end

/-! ### SEQ's turn -/

theorem seqTurn_render {s : State} (hp : s.seq.phase = .render) : seqTurn s = renderStep s := by
  simp only [seqTurn, hp]

theorem seqTurn_sends {s : State} (hs : s.seq.phase.sends = true) (hw : s.seq.wait = .none) : seqTurn s = sendStep s := by
  unfold seqTurn
  cases hp : s.seq.phase <;> simp [hp, hw, Phase.sends] at hs ⊢

/-- With nothing outstanding at the start of a buffer that is not empty, SEQ's turn is exec of the phase's TX operation
(R166). -/
theorem seqTurn_first {s : State} (hw : s.seq.wait = .none) (h0 : s.seq.off = 0) (hl : 0 < s.cur.length) :
    (seqTurn s).outcome = exec (txOperation s) s := by
  rw [seqTurn_sends (sends_of_off_lt (by omega)) hw, sendStep, if_pos (by omega), if_pos h0, Fetched.outcome]

/-- Inside the buffer it is exec of CHUNK on it (R166). -/
theorem seqTurn_more {s : State} (hw : s.seq.wait = .none) (h0 : 0 < s.seq.off) (hl : s.seq.off < s.cur.length) :
    (seqTurn s).outcome = exec (.chunk s.cur) s := by
  rw [seqTurn_sends (sends_of_off_lt hl) hw, sendStep, if_pos hl, if_neg (by omega), Fetched.outcome]

/-- At the end of a body with banding on it is exec of SLEEP, on the way into GAP (R171). -/
theorem seqTurn_bodyEnd {s : State} (hp : s.seq.phase = .body) (hw : s.seq.wait = .none) (hl : s.seq.off = s.cur.length)
    (hb : 0 < s.bandRows) : (seqTurn s).outcome = exec (.sleep .band) s.toGap := by
  rw [seqTurn_sends (by simp [hp, Phase.sends]) hw, sendStep, if_neg (by omega), if_pos hl]
  simp only [advance, hp]
  rw [if_pos hb, Fetched.outcome]

/-- Settles O5: the turn's own rule, then the rule of the position. -/
theorem stepRunsSelectedOperation : Obligations.StepRunsSelectedOperation := by
  refine ⟨fun s => step_of_no_turns, fun s rest hp => ?_, fun s rest hw h0 => ?_, fun s rest hw h0 hl => ?_,
    fun s rest hw => ?_, fun s rest hp hw hl hb => ?_, step_start⟩
  · have hrender := seqTurn_render (s := { s with turns := rest }) hp
    refine ⟨fun hs => ?_, fun hs => ?_, fun hs => ?_, fun hs => ?_⟩ <;>
      rw [step_seq, hrender] <;> simp only [renderStep, hs, Fetched.outcome]
  · have hfirst := seqTurn_first (s := { s with turns := rest }) hw h0
    rw [cur_length] at hfirst
    refine ⟨fun hp => ?_, fun hp => ?_, fun hp hl => ?_, fun hp => ?_⟩ <;>
      rw [step_seq, hfirst] <;> simp only [txOperation, hp, Phase.bufferLen]
    · decide
    · rfl
    · decide
    · exact hl
    · decide
  · exact seqTurn_more (s := { s with turns := rest }) hw h0 hl
  · exact congrArg Fetched.outcome (if_pos hw)
  · exact seqTurn_bodyEnd (s := { s with turns := rest }) hp hw hl hb

/-! ### The host's accesses -/

/-- Only a PIX write that finds BUSY clear changes PIX (R28, R29). -/
theorem hostAccess_pix {maxPix : Nat} {a : HostAction} {s t : State} (h : hostAccess maxPix a s = .next t) :
    t.pix = s.pix ∨ (s.status.busy = false ∧ ∃ i px, a = .writePix i px) := by
  cases a with
  | writePix i px =>
    cases hb : s.status.busy with
    | false => exact .inr ⟨rfl, i, px, rfl⟩
    | true =>
      simp only [hostAccess, hostWritePix, hb, if_true] at h
      cases h
      exact .inl rfl
  | readPix i =>
    simp only [hostAccess, hostReadPix] at h
    split at h
    · cases h
    · split at h <;> cases h <;> exact .inl rfl
  | readPk i =>
    simp only [hostAccess, hostReadPk] at h
    split at h
    · cases h
    · split at h <;> cases h <;> exact .inl rfl
  | readLum i =>
    simp only [hostAccess, hostReadLum] at h
    split at h <;> cases h
    exact .inl rfl
  | _ =>
    cases h
    exact .inl rfl

section
variable {maxPix i : Nat} {s : State}

/-- A PIX write during a job is ignored (R28). -/
theorem hostWritePix_busy (px : Pixel) (hb : s.status.busy = true) : hostWritePix maxPix i px s = .next s := by
  rw [hostWritePix, if_pos hb]

/-- A PIX write outside a job is stored (R29). -/
theorem hostWritePix_free (px : Pixel) (hb : s.status.busy = false) (hi : i < maxPix) :
    hostWritePix maxPix i px s = .next { s with pix := memSet s.pix i px } := by
  rw [hostWritePix, if_neg (by simp [hb]), if_neg (by omega)]

/-- A PIX read during a job returns a free value (R28, log 5). -/
theorem hostReadPix_busy (hb : s.status.busy = true) (hi : i < maxPix) :
    hostReadPix maxPix i s = .next (s.answerFree fun n => .pixel (Config.unspecifiedPixel n)) := by
  rw [hostReadPix, if_neg (by omega), if_pos hb]

/-- A PIX read outside a job returns the element (R29). -/
theorem hostReadPix_free (hb : s.status.busy = false) (hi : i < maxPix) :
    hostReadPix maxPix i s = .next (s.answer (.pixel (s.readPix i))) := by
  rw [hostReadPix, if_neg (by omega), if_neg (by simp [hb])]

/-- A PK read during a job returns a free value (R28, log 5). -/
theorem hostReadPk_busy (hb : s.status.busy = true) (hi : i < pkCapacity) :
    hostReadPk i s = .next (s.answerFree fun n => .byte (Config.unspecifiedByte n)) := by
  rw [hostReadPk, if_neg (by omega), if_pos hb]

/-- A PK read outside a job returns the byte (R29). -/
theorem hostReadPk_free (hb : s.status.busy = false) (hi : i < pkCapacity) :
    hostReadPk i s = .next (s.answer (.byte (s.readPk i))) := by
  rw [hostReadPk, if_neg (by omega), if_neg (by simp [hb])]

/-- A LUM read returns a free value at any time (R28, R29, log 5). -/
theorem hostReadLum_next (hi : i < maxPix) :
    hostReadLum maxPix i s = .next (s.answerFree fun n => .num (Config.unspecifiedNum n)) := by
  rw [hostReadLum, if_neg (by omega)]

end

/-- Settles O15: the frame of an access, and the rules of the accesses that store and return nothing. -/
theorem hostAccessLeavesJobAlone : Obligations.HostAccessLeavesJobAlone := by
  refine ⟨fun s t a rest ha hstep => ?_, fun s rest v w => ⟨?_, ?_, ?_⟩, fun s rest i hb => ⟨fun hi => ?_, fun hi => ?_⟩,
    fun s rest i hi => ?_⟩
  · rw [step_hostAccess s rest a ha] at hstep
    refine ⟨(hostAccess_next hstep).1, fun hb => (hostAccess_pix hstep).resolve_right fun hfree => ?_⟩
    exact absurd hb (by simpa using hfree.1)
  · exact step_hostAccess s rest _ (by decide)
  · exact step_hostAccess s rest _ nofun
  · exact step_hostAccess s rest _ nofun
  · rw [step_hostAccess s rest (.readPix i) nofun]
    exact ⟨_, hostReadPix_busy (s := { s with turns := rest }) hb hi⟩
  · rw [step_hostAccess s rest (.readPk i) nofun]
    exact ⟨_, hostReadPk_busy (s := { s with turns := rest }) hb hi⟩
  · rw [step_hostAccess s rest (.readLum i) nofun]
    exact ⟨_, hostReadLum_next (s := { s with turns := rest }) hi⟩

/-- A register read answers the register's word (R10, R20 to R22). -/
theorem step_readReg (s : State) (rest : List Turn) (r : Reg) :
    step { s with turns := .host (.readReg r) :: rest } =
      .next { s with turns := rest, hostData := .reg (s.regWord r) } :=
  step_hostAccess s rest _ nofun

/-- Settles O16: each access is its own rule; what PIX holds after a write is the memory's. -/
theorem hostPortReadsAndWrites : Obligations.HostPortReadsAndWrites := by
  refine ⟨fun s rest v => ⟨?_, ?_, ?_, ?_, ?_, ?_, ?_⟩, fun s rest q v => ⟨?_, ?_⟩, fun s rest i px hb => ?_,
    fun s rest i px hb hi => ?_, fun s rest i hb => ⟨fun hi => ?_, fun hi => ?_⟩, fun s rest => ?_⟩
  iterate 9 exact step_hostAccess s rest _ nofun
  · rw [step_hostAccess s rest (.writePix i px) nofun]
    exact hostWritePix_busy (s := { s with turns := rest }) px hb
  · rw [step_hostAccess s rest (.writePix i px) nofun]
    refine ⟨_, hostWritePix_free (s := { s with turns := rest }) px hb hi, rfl, ?_, fun j hj => ?_⟩
    · exact memRead_memSet_same _ _ _ _
    · exact memRead_memSet_other _ _ _ hj
  · rw [step_hostAccess s rest (.readPix i) nofun]
    exact hostReadPix_free (s := { s with turns := rest }) hb hi
  · rw [step_hostAccess s rest (.readPk i) nofun]
    exact hostReadPk_free (s := { s with turns := rest }) hb hi
  · refine ⟨?_, ?_, ?_, ?_, ?_, ?_, ?_, ?_, ?_, ?_, ?_, ?_⟩ <;> exact step_readReg s rest _

/-! ### STATUS -/

/-- The number an appended word stands for. -/
theorem toNat_append_eq_add {m n : Nat} (x : BitVec m) (y : BitVec n) : (x ++ y).toNat = x.toNat * 2 ^ n + y.toNat := by
  rw [BitVec.toNat_append, ← Nat.shiftLeft_add_eq_or_of_lt y.isLt, Nat.shiftLeft_eq]

/-- Settles O14: the fields of the word weigh what stands below them. -/
theorem statusWordLayout : Obligations.StatusWordLayout := by
  intro f
  simp only [Status.word, toNat_append_eq_add, BitVec.toNat_ofBool, BitVec.toNat_ofNat]
  omega

end Sys2Proof.Machine
end

section
/-! SUPPORT. Which steps stop the machine: every turn completes but a host access that names an element its memory does not
have. -/

namespace Sys2Proof.Machine

open Sys2Proof

/-! ### Turns that complete -/

/-- The fetched step answers a next state. -/
def Fetched.Completes (f : Fetched) : Prop := ∃ t, f.outcome = .next t

theorem run_completes (i : Instr) (s : State) : (Fetched.run i s).Completes := exec_next i s

theorem quiet_next_completes (s : State) : (Fetched.quiet (.next s)).Completes := ⟨s, rfl⟩

theorem advance_completes (s : State) : (advance s).Completes := by
  unfold advance
  cases s.seq.phase with
  | body =>
    dsimp only
    split
    · exact run_completes _ _
    · exact quiet_next_completes _
  | _ => exact quiet_next_completes _

theorem sendStep_completes (s : State) : (sendStep s).Completes := by
  unfold sendStep
  split
  · split <;> exact run_completes _ _
  · split
    · exact advance_completes s
    · exact quiet_next_completes s

theorem renderStep_completes (s : State) : (renderStep s).Completes := by
  unfold renderStep
  cases s.stage <;> exact run_completes _ _

theorem seqTurn_completes (s : State) : (seqTurn s).Completes := by
  have waiting {f : Fetched} (hf : f.Completes) :
      (if s.seq.wait = .none then f else .quiet (.next s)).Completes := by
    split
    · exact hf
    · exact quiet_next_completes s
  unfold seqTurn
  cases s.seq.phase with
  | idle => exact quiet_next_completes s
  | render => exact renderStep_completes s
  | gap => exact waiting (advance_completes s)
  | _ => exact waiting (sendStep_completes s)

theorem linkTurn_completes (a : LinkAnswer) (s : State) : (linkTurn a s).Completes := by
  unfold linkTurn
  split
  · cases a with
    | ok => exact run_completes _ _
    | fail => exact quiet_next_completes _
  · exact quiet_next_completes s

theorem timerTurn_completes (s : State) : (timerTurn s).Completes := by
  unfold timerTurn
  split <;> exact quiet_next_completes _

/-! ### Host accesses that fault -/

/-- The access names element `i` of a memory whose capacity does not reach it (R40, log 11). -/
def NamesMissing (maxPix : Nat) (a : HostAction) (i : Nat) : Prop :=
  (maxPix ≤ i ∧ ((∃ px, a = .writePix i px) ∨ a = .readPix i ∨ a = .readLum i)) ∨ (pkCapacity ≤ i ∧ a = .readPk i)

/-- An access completes, or faults with the missing element it names. -/
theorem hostAccess_answers (maxPix : Nat) (a : HostAction) (s : State) :
    (∃ t, hostAccess maxPix a s = .next t) ∨
      ∃ i, hostAccess maxPix a s = .fault (.noSuchElement i) ∧ NamesMissing maxPix a i := by
  cases a with
  | writePix i px =>
    simp only [hostAccess, hostWritePix]
    split
    · exact .inl ⟨_, rfl⟩
    · split
      next hi => exact .inr ⟨i, rfl, .inl ⟨hi, .inl ⟨px, rfl⟩⟩⟩
      next => exact .inl ⟨_, rfl⟩
  | readPix i =>
    simp only [hostAccess, hostReadPix]
    split
    next hi => exact .inr ⟨i, rfl, .inl ⟨hi, .inr (.inl rfl)⟩⟩
    next => split <;> exact .inl ⟨_, rfl⟩
  | readPk i =>
    simp only [hostAccess, hostReadPk]
    split
    next hi => exact .inr ⟨i, rfl, .inr ⟨hi, rfl⟩⟩
    next => split <;> exact .inl ⟨_, rfl⟩
  | readLum i =>
    simp only [hostAccess, hostReadLum]
    split
    next hi => exact .inr ⟨i, rfl, .inl ⟨hi, .inr (.inr rfl)⟩⟩
    next => exact .inl ⟨_, rfl⟩
  | _ => exact .inl ⟨_, rfl⟩

/-! ### The step -/

theorem head?_of_nextTurn_host {s : State} {a : HostAction} (h : s.nextTurn = .host a) :
    s.turns.head? = some (.host a) := by
  cases ht : s.turns with
  | nil => simp [State.nextTurn, ht] at h
  | cons tn rest => simpa [State.nextTurn, ht] using h

/-- A turn completes, or is a host access that faults with the missing element it names. -/
theorem turnStep_answers (tn : Turn) (u : State) :
    (turnStep tn u).Completes ∨
      ∃ a i, tn = .host a ∧ (turnStep tn u).outcome = .fault (.noSuchElement i) ∧
        NamesMissing Params.adopted.maxPix a i := by
  cases tn with
  | seq => exact .inl (seqTurn_completes u)
  | link a => exact .inl (linkTurn_completes a u)
  | timer => exact .inl (timerTurn_completes u)
  | reset => exact .inl (quiet_next_completes _)
  | host a =>
    by_cases ha : a = .writeCtrl 1#1
    · subst ha
      exact .inl (run_completes .start u)
    · have haccess : (turnStep (.host a) u).outcome = hostAccess Params.adopted.maxPix a u :=
        step_hostAccess u u.turns a ha
      rw [Fetched.Completes, haccess]
      exact (hostAccess_answers _ a u).imp_right fun ⟨i, hi⟩ => ⟨a, i, rfl, hi⟩

/-- A step completes, or is a host access that faults with the missing element it names. -/
theorem step_answers (s : State) :
    (∃ t, step s = .next t) ∨
      ∃ a i, s.turns.head? = some (.host a) ∧ step s = .fault (.noSuchElement i) ∧
        NamesMissing Params.adopted.maxPix a i :=
  (turnStep_answers s.nextTurn s.popTurn).imp_right fun ⟨a, i, ha, hi⟩ => ⟨a, i, head?_of_nextTurn_host ha, hi⟩

/-- Settles O17, by what a step can answer. -/
theorem onlyMissingElementsFault : Obligations.OnlyMissingElementsFault := by
  refine ⟨fun s r hr => ?_, fun s r hr => ?_⟩
  · obtain ⟨t, ht⟩ | ⟨a, i, -, hf, -⟩ := step_answers s
    · cases hr.symm.trans ht
    · cases hr.symm.trans hf
  · obtain ⟨t, ht⟩ | ⟨a, i, hhead, hf, hmissing⟩ := step_answers s
    · cases hr.symm.trans ht
    · cases hr.symm.trans hf
      rw [hhead]
      refine ⟨i, rfl, ?_⟩
      obtain ⟨hi, ⟨px, rfl⟩ | rfl | rfl⟩ | ⟨hi, rfl⟩ := hmissing
      · exact .inl ⟨hi, .inl ⟨px, rfl⟩⟩
      · exact .inl ⟨hi, .inr (.inl rfl)⟩
      · exact .inl ⟨hi, .inr (.inr rfl)⟩
      · exact .inr ⟨hi, rfl⟩

end Sys2Proof.Machine
end

section
/-! SUPPORT. Which memories a move can change, and whose move it then is. -/

namespace Sys2Proof.Machine

open Sys2Proof

/-- What a move that is no reset can change of PIX, CFG, LUM and PK (R10, R41 to R43). -/
inductive MemoryChange (u t : State) : Turn → Prop where
  | nothing (tn : Turn) (hpix : t.pix = u.pix) (hcfg : t.cfg = u.cfg) (hlum : t.lum = u.lum) (hpk : t.pk = u.pk) :
      MemoryChange u t tn
  /-- A host action can change CFG, and a PIX write outside a job PIX (R10, R28, R29). -/
  | host (a : HostAction) (hpix : t.pix = u.pix ∨ (u.status.busy = false ∧ ∃ i px, a = .writePix i px))
      (hlum : t.lum = u.lum) (hpk : t.pk = u.pk) : MemoryChange u t (.host a)
  /-- LUMA, TONE and QUANT can change LUM (R42). -/
  | lum (hp : u.seq.phase = .render) (hs : u.stage ≠ .pack) (hpix : t.pix = u.pix) (hcfg : t.cfg = u.cfg)
      (hpk : t.pk = u.pk) : MemoryChange u t .seq
  /-- PACK can change PK (R43). -/
  | pk (hp : u.seq.phase = .render) (hs : u.stage = .pack) (hpix : t.pix = u.pix) (hcfg : t.cfg = u.cfg)
      (hlum : t.lum = u.lum) : MemoryChange u t .seq

theorem memoryChange_of_issuesSlice {u t : State} (h : IssuesSlice u t) (tn : Turn) : MemoryChange u t tn := by
  obtain ⟨-, -, buf, -, rfl⟩ := h
  rw [issue_eq]
  exact .nothing tn rfl rfl rfl rfl

/-- A START changes no memory and no configuration register (R180). -/
theorem memoryChange_startJob (maxPix : Nat) (u : State) (tn : Turn) : MemoryChange u (u.startJob maxPix) tn := by
  rcases startJob_cases maxPix u with ⟨-, he⟩ | ⟨-, check, he⟩ | ⟨-, -, he⟩ <;> rw [he]
  · exact .nothing tn rfl rfl rfl rfl
  all_goals
    rw [latched_eq]
    exact .nothing tn rfl rfl rfl rfl

theorem memoryChange_of_moves {tn : Turn} {u t : State} (hreset : tn ≠ .reset) (hm : Moves tn u t) :
    MemoryChange u t tn := by
  cases hm with
  | luma _ hp hs | tone _ hp hs | thresh _ hp hs | fs _ hp hs | atk _ hp hs | ord4 _ hp hs | ord8 _ hp hs
  | reserved _ hp hs => exact .lum hp (by simp [hs]) rfl rfl rfl
  | pack _ hp hs => exact .pk hp hs rfl rfl rfl
  | issueReset _ hp hw h0 => exact memoryChange_of_issuesSlice (issuesSlice_reset hw hp h0) _
  | issueHdr _ hp hw h0 => exact memoryChange_of_issuesSlice (issuesSlice_hdr hw hp h0 _ _) _
  | issueBody _ hp hw h0 hl => exact memoryChange_of_issuesSlice (issuesSlice_body hw hp h0 hl) _
  | issueFeed _ hp hw h0 => exact memoryChange_of_issuesSlice (issuesSlice_feed hw hp h0) _
  | issueMore _ hw h0 hl => exact memoryChange_of_issuesSlice (issuesSlice_chunk hw hl) _
  | advBodyBanded =>
    rcases pauseBand_cases u.toGap with he | ⟨-, he⟩ <;> rw [he] <;> exact .nothing _ rfl rfl rfl rfl
  | completeOk =>
    rcases pauseChunk_cases u.sliceSent with he | ⟨-, he⟩ <;> rw [he] <;> exact .nothing _ rfl rfl rfl rfl
  | start => exact memoryChange_startJob _ _ _
  | access a _ _ ha hacc =>
    have hframe := (hostAccess_next hacc).1
    exact .host a (hostAccess_pix hacc) (by rw [hframe]) (by rw [hframe])
  | reset => exact absurd rfl hreset
  | _ => exact .nothing _ rfl rfl rfl rfl

/-- Settles O59: whichever memory has changed, only one kind of move changes it. -/
theorem memoriesHaveOneWriter : Obligations.MemoriesHaveOneWriter := by
  intro s t hstep hreset
  have hchange := memoryChange_of_moves hreset (step_moves hstep)
  generalize s.nextTurn = tn at hchange ⊢
  cases hchange with
  | nothing _ hpix hcfg hlum hpk =>
    exact ⟨absurd hpix, absurd hcfg, absurd hlum, absurd hpk⟩
  | host a hpix hlum hpk =>
    refine ⟨fun h => ?_, fun _ => ⟨a, rfl⟩, absurd hlum, absurd hpk⟩
    obtain ⟨hfree, i, px, rfl⟩ := hpix.resolve_left h
    exact ⟨i, px, rfl, hfree⟩
  | lum hp hs hpix hcfg hpk =>
    exact ⟨absurd hpix, absurd hcfg, fun _ => ⟨rfl, hp, hs⟩, absurd hpk⟩
  | pk hp hs hpix hcfg hlum =>
    exact ⟨absurd hpix, absurd hcfg, absurd hlum, fun _ => ⟨rfl, hp, hs⟩⟩

end Sys2Proof.Machine
end

section
/-! SUPPORT. The decoder and the encoder: the two bytes of a header field, what the decoder makes of each encoding, and which
bytes it accepts as which operation. -/

namespace Sys2Proof

/-! ### Header fields (R63) -/

@[simp] theorem toNat_lo8 (v : Nat) : (lo8 v).toNat = v % 256 := by simp [lo8]

@[simp] theorem toNat_hi8 (v : Nat) : (hi8 v).toNat = v / 256 % 256 := by simp [hi8]

theorem toNat_joinLoHi (lo hi : Byte) : (joinLoHi lo hi).toNat = lo.toNat + 256 * hi.toNat := by
  have hlo := lo.isLt
  have hhi := hi.isLt
  rw [joinLoHi, BitVec.toNat_ofNat]
  omega

/-- A receiver recovers the field (R63). -/
@[simp] theorem joinLoHi_lo8_hi8 (v : Half) : joinLoHi (lo8 v.toNat) (hi8 v.toNat) = v := by
  have hv := v.isLt
  apply BitVec.eq_of_toNat_eq
  rw [toNat_joinLoHi, toNat_lo8, toNat_hi8]
  omega

@[simp] theorem lo8_joinLoHi (lo hi : Byte) : lo8 (joinLoHi lo hi).toNat = lo := by
  have hlo := lo.isLt
  apply BitVec.eq_of_toNat_eq
  rw [toNat_lo8, toNat_joinLoHi]
  omega

@[simp] theorem hi8_joinLoHi (lo hi : Byte) : hi8 (joinLoHi lo hi).toNat = hi := by
  have hlo := lo.isLt
  have hhi := hi.isLt
  apply BitVec.eq_of_toNat_eq
  rw [toNat_hi8, toNat_joinLoHi]
  omega

/-! ### Decoding an encoding -/

/-- The decoder reads a header back, with the two fields a receiver recovers (R62, R63). -/
theorem decodeWire_headerBytes (rowBytes rows : Half) (rest : List Byte) :
    decodeWire (headerBytes rowBytes.toNat rows.toNat ++ rest) = .ok (.txHdr rowBytes rows, rest) := by
  simp [headerBytes, decodeWire, decodeHeaderTail]

/-- Asked for its own format, a wire command is accepted (R60). -/
theorem decodeWireAs_of_decodeWire {bs rest : List Byte} {i : Instr} (h : decodeWire bs = .ok (i, rest)) :
    decodeWireAs i.format bs = .ok (i, rest) := by
  simp [decodeWireAs, h]

/-- Settles O7, by cases on the operation: a header by its two fields, every other encoding is a fixed word. -/
theorem decodeOfEncode : Obligations.DecodeOfEncode := by
  intro i bs rest h
  cases i with
  | txHdr rowBytes rows =>
    obtain rfl := Option.some.inj h
    exact decodeWireAs_of_decodeWire (decodeWire_headerBytes rowBytes rows rest)
  | txReset | txFeed | qThresh | qFs | qAtk | qOrd4 | qOrd8 | qReserved5 | qReserved6 | qReserved7 | start =>
    obtain rfl := Option.some.inj h
    rfl
  | txBody | luma | tone | pack | chunk | sleep => cases h

/-- Settles O9, by evaluating the decoder on each word. -/
theorem specWordsDecode : Obligations.SpecWordsDecode := ⟨rfl, rfl, rfl, rfl, rfl⟩

/-! ### What the decoder accepts -/

/-- What comes after `1D 76` is accepted as a header only (R62). -/
theorem decodeHeaderTail_ok {bs rest : List Byte} {i : Instr} (h : decodeHeaderTail bs = .ok (i, rest)) :
    ∃ rowBytes rows : Half, i = .txHdr rowBytes rows ∧
      0x1D#8 :: 0x76#8 :: bs = headerBytes rowBytes.toNat rows.toNat ++ rest := by
  unfold decodeHeaderTail at h
  split at h
  next b2 b3 xl xh yl yh tail =>
    split_ifs at h with hfixed
    obtain ⟨rfl, rfl⟩ := hfixed
    cases h
    exact ⟨joinLoHi xl xh, joinLoHi yl yh, rfl, by simp [headerBytes]⟩
  next => cases h

/-- A wire command is accepted as the operation it encodes (R60 to R62). -/
theorem encode_of_decodeWire {bs rest : List Byte} {i : Instr} (h : decodeWire bs = .ok (i, rest)) :
    ∃ e, encode i = some e ∧ bs = e ++ rest := by
  unfold decodeWire at h
  split at h
  next b0 b1 tail =>
    split_ifs at h with hreset hfeed hheader
    · obtain ⟨rfl, rfl⟩ := hreset
      cases h
      exact ⟨resetBytes, rfl, rfl⟩
    · obtain ⟨rfl, rfl⟩ := hfeed
      cases h
      exact ⟨feedBytes, rfl, rfl⟩
    · obtain ⟨rfl, rfl⟩ := hheader
      obtain ⟨rowBytes, rows, rfl, hbs⟩ := decodeHeaderTail_ok h
      exact ⟨_, rfl, hbs⟩
  next => cases h

/-- The operation a code selects has that code (R66, R67). -/
theorem qmodeCode_decodeQmode (c : BitVec 3) : qmodeCode (decodeQmode c) = some c := by
  revert c
  decide

/-- It is encoded by one byte that holds the code in its low bits. -/
theorem encode_decodeQmode (c : BitVec 3) : encode (decodeQmode c) = some [c.setWidth 8] := by
  revert c
  decide

/-- A byte that is a QMODE code is the encoding of the operation it selects (R66, R67). -/
theorem encode_of_decodeQmodeByte {bs rest : List Byte} {i : Instr} (h : decodeQmodeByte bs = .ok (i, rest)) :
    ∃ e, encode i = some e ∧ bs = e ++ rest := by
  unfold decodeQmodeByte at h
  split at h
  next b tail =>
    split_ifs at h with hcode
    cases h
    have hbyte : (BitVec.ofNat 3 b.toNat).setWidth 8 = b := by bv_omega
    exact ⟨[b], by rw [encode_decodeQmode, hbyte], rfl⟩
  next => cases h

/-- Of the writes to CTRL only the write of 1 is an operation, and it is START (R20). -/
theorem start_of_decodeCtrlByte {bs rest : List Byte} {i : Instr} (h : decodeCtrlByte bs = .ok (i, rest)) :
    i = .start ∧ bs = 0x01#8 :: rest := by
  unfold decodeCtrlByte at h
  split at h
  next b tail =>
    split_ifs at h with hlt
    have hbyte : b = 0x00#8 ∨ b = 0x01#8 := by bv_omega
    rcases hbyte with rfl | rfl <;> cases h
    exact ⟨rfl, rfl⟩
  next => cases h

/-- Settles O8: each decoder by what it accepts. -/
theorem encodeOfDecode : Obligations.EncodeOfDecode :=
  ⟨fun _ _ _ => encode_of_decodeWire, fun _ _ _ => encode_of_decodeQmodeByte, fun _ _ _ => start_of_decodeCtrlByte,
    qmodeCode_decodeQmode⟩

/-- Asking for a format only narrows what is accepted (R60). -/
theorem decodeWire_of_decodeWireAs {f : Format} {bs rest : List Byte} {i : Instr}
    (h : decodeWireAs f bs = .ok (i, rest)) : decodeWire bs = .ok (i, rest) := by
  unfold decodeWireAs at h
  split at h
  next j tail hwire =>
    split_ifs at h with hformat
    rw [hwire, h]
  next => cases h

/-- Whatever format is asked for, the decoder accepts only the encoding of the operation it reads. -/
theorem encode_of_decode {f : Format} {bs rest : List Byte} {i : Instr} (h : decode f bs = .ok (i, rest)) :
    ∃ e, encode i = some e ∧ bs = e ++ rest := by
  cases f with
  | wire2 | wire8 => exact encode_of_decodeWire (decodeWire_of_decodeWireAs h)
  | qmode3 => exact encode_of_decodeQmodeByte h
  | ctrl1 =>
    obtain ⟨rfl, rfl⟩ := start_of_decodeCtrlByte h
    exact ⟨_, rfl, rfl⟩
  | raw | unencoded => cases h

/-- Only an operation with an encoding has a table word. -/
theorem encode_ne_none_of_decodeTableWord {nbits w : Nat} {i : Instr} (h : decodeTableWord nbits w = some i) :
    encode i ≠ none := by
  unfold decodeTableWord at h
  split at h
  next => cases h
  next f hf =>
    split_ifs at h with hfits
    split at h
    next j tail hdecode =>
      obtain rfl := Option.some.inj h
      obtain ⟨e, he, -⟩ := encode_of_decode hdecode
      simp [he]
    next => cases h

end Sys2Proof
end

section
/-! SUPPORT. An operation placed where the next step runs it (log 18), and what the reserved mode codes run (log 19). -/

namespace Sys2Proof.Machine

open Sys2Proof

section
variable (s : State)

/-- Placed at a sending phase whose buffer is not empty, the phase's TX operation runs. -/
theorem step_atPhase (phase : Phase) {i : Instr} (hl : 0 < phase.bufferLen s.rowBytes s.seq.rows)
    (hi : txOperation (s.atPhase phase) = i) :
    step (s.atPhase phase) = exec i { s.atPhase phase with turns := s.turns } := by
  subst hi
  refine seqTurn_first rfl rfl ?_
  rw [cur_length]
  exact hl

/-- Placed at QUANT, the operation of the code runs. -/
theorem step_atQuant (code : BitVec 3) :
    step (s.atQuant code) = exec (decodeQmode code) { s.atQuant code with turns := s.turns } := rfl

end

/-- The width a header is placed with has the header's row length (R131). -/
theorem rowBytesOf_widthFor {rowBytes : Nat} (hpos : 1 ≤ rowBytes) (hle : rowBytes ≤ 8192) :
    rowBytesOf (widthFor rowBytes).toNat = rowBytes := by
  rw [widthFor, rowBytesOf, BitVec.toNat_ofNat]
  omega

/-- A placed header is the one its phase sends. -/
theorem txOperation_placeInstr_txHdr (s : State) {rowBytes rows : Half} (hpos : 1 ≤ rowBytes.toNat)
    (hle : rowBytes.toNat ≤ 8192) : txOperation (s.placeInstr (.txHdr rowBytes rows)) = .txHdr rowBytes rows := by
  simp [txOperation, State.placeInstr, State.atPhase, State.rowBytes, State.width, rowBytesOf_widthFor hpos hle]

/-- A placed operation that has an encoding runs next. -/
theorem step_placeInstr (s : State) {i : Instr} (hencoded : encode i ≠ none) (hwf : i.wf = true) :
    step (s.placeInstr i) = exec i { s.placeInstr i with turns := s.turns } := by
  cases i with
  | txReset => exact step_atPhase s .reset (by simp [Phase.bufferLen]) rfl
  | txFeed => exact step_atPhase s .feed (by simp [Phase.bufferLen]) rfl
  | txHdr rowBytes rows =>
    simp only [Instr.wf, wfHeader, Bool.and_eq_true, decide_eq_true_eq] at hwf
    obtain ⟨⟨hpos, hle⟩, -⟩ := hwf
    exact step_atPhase _ .hdr (by simp [Phase.bufferLen]) (txOperation_placeInstr_txHdr s hpos hle)
  | qThresh | qFs | qAtk | qOrd4 | qOrd8 | qReserved5 | qReserved6 | qReserved7 => exact step_atQuant s _
  | start => exact step_start s s.turns
  | txBody | luma | tone | pack | chunk | sleep => exact absurd rfl hencoded

/-- Settles O6: a word that decodes places its operation, and only an operation with an encoding has a word. -/
theorem placedWordRuns : Obligations.PlacedWordRuns := by
  intro s nbits w i hdecode hwf
  have hplaced : s.withFetchWord nbits w = s.placeInstr i := by rw [State.withFetchWord, placeWord, hdecode]
  rw [hplaced]
  exact step_placeInstr s (encode_ne_none_of_decodeTableWord hdecode) hwf

/-! ### The reserved mode codes -/

/-- Settles O25: all three run Q.FS on the state with the code replaced, and Q.FS stays inside the grid. -/
theorem reservedModesRunDefault : Obligations.ReservedModesRunDefault := fun s =>
  ⟨reservedStage Params.adopted s, rfl, rfl, rfl, rfl, rfl, fun _ ha => fsGrid_outside _ _ _ _ _ ha⟩

end Sys2Proof.Machine
end

section
/-! SUPPORT. How long the stream is, and the ranges of a header's two fields. -/

namespace Sys2Proof.Machine

open Sys2Proof

/-- The rows of the first `n` bands (R141). -/
theorem sum_bandRows (b h n : Nat) : ((List.range n).map fun i => min b (h - i * b)).sum = min (n * b) h := by
  induction n with
  | zero => simp
  | succ n ih =>
    rw [List.range_succ, List.map_append, List.sum_append, ih, Nat.succ_mul]
    simp only [List.map_cons, List.map_nil, List.sum_cons, List.sum_nil]
    omega

/-- The bands hold every row once (R141). -/
theorem sum_rows_bandsOf (b h : Nat) : ((bandsOf b h).map fun band => band.2).sum = h := by
  rcases Nat.eq_zero_or_pos b with rfl | hb
  · simp
  · have hcover : h ≤ ceilDiv h b * b := not_lt.1 fun hlt => lt_irrefl _ ((lt_ceilDiv_iff hb).2 hlt)
    simp only [bandsOf, hb, if_true, List.map_map, Function.comp_def]
    rw [sum_bandRows, min_eq_right hcover]

/-- A frame is a header of 8 bytes and the rows of its band (R62, R64). -/
theorem length_flatMap_frames (s : State) (bands : List (Nat × Nat)) :
    (bands.flatMap fun band => headerBytes s.rowBytes band.2 ++ s.bandBytes band.1 band.2).length =
      8 * bands.length + s.rowBytes * (bands.map fun band => band.2).sum := by
  induction bands with
  | nil => rfl
  | cons band bands ih =>
    rw [List.flatMap_cons, List.length_append, ih, List.length_append, bandBytes_length, List.map_cons, List.sum_cons,
      List.length_cons, Nat.mul_add s.rowBytes]
    simp only [headerBytes, List.length_cons, List.length_nil]
    omega

/-- Settles O45: the frames lie between the two commands, and their bodies hold every row once. -/
theorem streamLength : Obligations.StreamLength := by
  intro s _
  have hlen : s.stream.length = 2 + 8 * s.bands.length + s.rowBytes * s.height + 2 := by
    rw [State.stream, List.length_append, List.length_append, length_flatMap_frames, State.bands, sum_rows_bandsOf]
    simp only [resetBytes, feedBytes, List.length_cons, List.length_nil]
    omega
  refine ⟨hlen, rfl, List.drop_left' ?_⟩
  rw [State.stream, List.length_append (bs := feedBytes)]
  exact (Nat.add_sub_cancel _ 2).symm

/-! ### The header's fields -/

/-- The row length of a width (R131). -/
theorem rowBytesOf_bounds {w : Nat} (hpos : 1 ≤ w) (hle : w ≤ 65535) :
    1 ≤ rowBytesOf w ∧ rowBytesOf w ≤ 8192 ∧ w ≤ 8 * rowBytesOf w ∧ 8 * rowBytesOf w < w + 8 := by
  unfold rowBytesOf
  omega

/-- Settles O10: the two bytes of a field, and the bounds of a job's two fields. -/
theorem headerFieldsAreLittleEndian : Obligations.HeaderFieldsAreLittleEndian := by
  refine ⟨fun v hv => ?_, fun _ _ => rfl, fun w => rowBytesOf_bounds, fun s band hheight hband => ?_⟩
  · have hfield : (lo8 v).toNat + 256 * (hi8 v).toNat = v := by
      rw [toNat_lo8, toNat_hi8]
      omega
    exact ⟨hfield, (toNat_joinLoHi _ _).trans hfield⟩
  · obtain ⟨hrows, hinside⟩ := band_inside hheight hband
    have hmax := height_le s
    omega

end Sys2Proof.Machine
end

section
/-! SUPPORT. The exact luminance as a number, and what LUMA leaves in LUM. -/

namespace Sys2Proof.Machine

open Sys2Proof

/-- The weights sum to 1000, so the quotient fits in a byte and none of it is cut off (R81). -/
theorem toNat_lumaExact (r g b : Byte) :
    (lumaExact r g b).toNat = (299 * r.toNat + 587 * g.toNat + 114 * b.toNat) / 1000 := by
  have hsum : 299 * r.toNat + 587 * g.toNat + 114 * b.toNat ≤ 1000 * 255 := by omega
  rw [lumaExact, BitVec.toNat_ofNat]
  exact Nat.mod_eq_of_lt (by omega)

/-- LUMA with the spec's parameters leaves the exact luminance at every pixel of the grid (R80, R81). -/
theorem lumaStage_readLum (s : State) {x y : Nat} (hx : x < s.width) (hy : y < s.height) :
    (lumaStage Params.adopted s).readLum (pixelAddr s.width x y) =
      ((lumaExact (s.readPix (pixelAddr s.width x y)).r (s.readPix (pixelAddr s.width x y)).g
        (s.readPix (pixelAddr s.width x y)).b).toNat : LumNum) :=
  lumaGrid_read Params.adopted (Config.lumAtReset s.resets) s.readPix s.width s.height s.lum hx hy

/-- LUMA leaves every element outside the grid as it was (R48). -/
theorem lumaStage_readLum_outside (p : Params) (s : State) {a : Nat} (ha : s.width * s.height ≤ a) :
    (lumaStage p s).readLum a = s.readLum a :=
  lumaGrid_outside p (Config.lumAtReset s.resets) s.readPix s.width s.height s.lum ha

/-- Settles O18: LUMA's next state differs in LUM and `stage` only, and its LUM is read inside and outside the grid. -/
theorem lumaComputesLuminance : Obligations.LumaComputesLuminance := by
  refine fun s => ⟨lumaStage Params.adopted s, rfl, rfl, fun x y hx hy => ?_, fun a ha => ?_⟩
  · rw [lumaStage_readLum s hx hy, toNat_lumaExact]
  · exact lumaStage_readLum_outside _ s ha

end Sys2Proof.Machine
end

section
/-! SUPPORT. The exact tone curve on naturals: its value is the greatest candidate of R92, and R93's shape follows from that. -/

namespace Sys2Proof.Machine

open Sys2Proof

/-! ### The search for the largest fit -/

/-- The search gives the greatest of the numbers up to `top` that fit, where 0 fits. -/
theorem isGreatest_largestFit (fits : Nat → Bool) (h0 : fits 0 = true) (top : Nat) :
    IsGreatest {n | n ≤ top ∧ fits n = true} (largestFit fits top) := by
  induction top with
  | zero => exact ⟨⟨le_rfl, h0⟩, fun _ hk => hk.1⟩
  | succ top ih =>
    obtain ⟨⟨hle, hfit⟩, hmax⟩ := ih
    rw [largestFit]
    split
    case isTrue htop => exact ⟨⟨le_rfl, htop⟩, fun _ hk => hk.1⟩
    case isFalse htop =>
      refine ⟨⟨hle.trans top.le_succ, hfit⟩, fun k ⟨hk, hkfit⟩ => hmax ⟨?_, hkfit⟩⟩
      have hne : k ≠ top + 1 := fun he => htop (he ▸ hkfit)
      omega

/-! ### The curve as the greatest candidate -/

/-- The numbers among which R92 takes the greatest. -/
def toneCandidates (p q v : Nat) : Set Nat := {n | n ≤ 255 ∧ n ^ p * 255 ^ q ≤ 255 ^ p * v ^ q}

/-- The exact curve on naturals. -/
def toneCurve (p q v : Nat) : Nat := largestFit (toneFits (p / Nat.gcd p q) (q / Nat.gcd p q) (v : LumNum)) 255

theorem toneExact_natCast (p q v : Nat) : toneExact p q (v : LumNum) = (toneCurve p q v : LumNum) := by
  have hv : ¬ (v : LumNum) < 0 := (Nat.cast_nonneg v).not_gt
  rw [toneExact, if_neg hv, toneCurve]

theorem toneFits_natCast (p q v n : Nat) :
    toneFits p q (v : LumNum) n = true ↔ n ^ p * 255 ^ q ≤ 255 ^ p * v ^ q := by
  simp [toneFits]

/-- Multiplying both exponents by `g` raises both sides of R92's inequality to the power `g`. -/
theorem tone_inequality_scale {g : Nat} (hg : g ≠ 0) (p q v n : Nat) :
    n ^ (p * g) * 255 ^ (q * g) ≤ 255 ^ (p * g) * v ^ (q * g) ↔ n ^ p * 255 ^ q ≤ 255 ^ p * v ^ q := by
  simp only [pow_mul, ← mul_pow]
  exact Nat.pow_le_pow_iff_left hg

/-- The model compares in lowest terms, which changes nothing. -/
theorem toneFits_lowest_terms {p : Nat} (q v n : Nat) (hp : 0 < p) :
    toneFits (p / Nat.gcd p q) (q / Nat.gcd p q) (v : LumNum) n = true ↔ n ^ p * 255 ^ q ≤ 255 ^ p * v ^ q := by
  have hg : Nat.gcd p q ≠ 0 := (Nat.gcd_pos_of_pos_left q hp).ne'
  rw [toneFits_natCast, ← tone_inequality_scale hg, Nat.div_mul_cancel (Nat.gcd_dvd_left p q),
    Nat.div_mul_cancel (Nat.gcd_dvd_right p q)]

/-- The curve of R92: the largest `n` in 0 to 255 that satisfies the inequality. -/
theorem isGreatest_toneCurve {p : Nat} (q v : Nat) (hp : 0 < p) :
    IsGreatest (toneCandidates p q v) (toneCurve p q v) := by
  have h0 : (0 : Nat) ^ p * 255 ^ q ≤ 255 ^ p * v ^ q := by simp [hp.ne']
  have h := isGreatest_largestFit _ ((toneFits_lowest_terms q v 0 hp).2 h0) 255
  simpa only [toneCandidates, toneCurve, toneFits_lowest_terms q v _ hp] using h

/-! ### The shape of the curve -/

/-- Up to 255, moving exponent from `n` to 255 makes the product no smaller. -/
theorem pow_mul_pow_le_of_le_255 {n a b : Nat} (hn : n ≤ 255) (hab : a ≤ b) :
    n ^ b * 255 ^ a ≤ n ^ a * 255 ^ b := by
  obtain ⟨d, rfl⟩ := Nat.exists_eq_add_of_le hab
  calc n ^ (a + d) * 255 ^ a
      = n ^ a * 255 ^ a * n ^ d := by ring
    _ ≤ n ^ a * 255 ^ a * 255 ^ d := Nat.mul_le_mul_left _ (Nat.pow_le_pow_left hn d)
    _ = n ^ a * 255 ^ (a + d) := by ring

section
variable {p q v : Nat} (hp : 0 < p)
include hp

theorem toneCurve_le_255 : toneCurve p q v ≤ 255 := (isGreatest_toneCurve q v hp).1.1

theorem toneCurve_inequality : toneCurve p q v ^ p * 255 ^ q ≤ 255 ^ p * v ^ q := (isGreatest_toneCurve q v hp).1.2

theorem le_toneCurve {k : Nat} (hk : k ≤ 255) (hfit : k ^ p * 255 ^ q ≤ 255 ^ p * v ^ q) : k ≤ toneCurve p q v :=
  (isGreatest_toneCurve q v hp).2 ⟨hk, hfit⟩

/-- Black stays black: on the right the inequality has 0. -/
theorem toneCurve_zero (hq : 0 < q) : toneCurve p q 0 = 0 := by
  have h : toneCurve p q 0 ^ p * 255 ^ q = 0 := by simpa [hq.ne'] using toneCurve_inequality (q := q) (v := 0) hp
  have hpow : toneCurve p q 0 ^ p = 0 := (Nat.mul_eq_zero.1 h).resolve_right (by positivity)
  exact (pow_eq_zero_iff hp.ne').1 hpow

/-- White stays white: 255 itself fits. -/
theorem toneCurve_255 : toneCurve p q 255 = 255 :=
  (toneCurve_le_255 hp).antisymm (le_toneCurve hp le_rfl le_rfl)

/-- Every candidate for a darker element is one for a lighter element. -/
theorem toneCurve_mono {v' : Nat} (hv : v ≤ v') : toneCurve p q v ≤ toneCurve p q v' :=
  le_toneCurve hp (toneCurve_le_255 hp)
    ((toneCurve_inequality hp).trans (Nat.mul_le_mul_left _ (Nat.pow_le_pow_left hv q)))

/-- For gamma above 1 the element itself is a candidate. -/
theorem le_toneCurve_self (hpq : q ≤ p) (hv : v ≤ 255) : v ≤ toneCurve p q v :=
  le_toneCurve hp hv ((pow_mul_pow_le_of_le_255 hv hpq).trans_eq (Nat.mul_comm _ _))

/-- For gamma below 1 no candidate is greater than the element. -/
theorem toneCurve_le_self (hpq : p < q) : toneCurve p q v ≤ v := by
  have hpow : 255 ^ p * toneCurve p q v ^ q ≤ 255 ^ p * v ^ q :=
    calc 255 ^ p * toneCurve p q v ^ q
        = toneCurve p q v ^ q * 255 ^ p := Nat.mul_comm _ _
      _ ≤ toneCurve p q v ^ p * 255 ^ q := pow_mul_pow_le_of_le_255 (toneCurve_le_255 hp) hpq.le
      _ ≤ 255 ^ p * v ^ q := toneCurve_inequality hp
  exact (Nat.pow_le_pow_iff_left (by omega)).1 (Nat.le_of_mul_le_mul_left hpow (by positivity))

end

/-- Settles O21: each bullet of R93 is a fact about the curve on naturals. -/
theorem toneBoundariesAndShape : Obligations.ToneBoundariesAndShape := by
  intro p q hp hq
  refine ⟨?_, ?_, fun v _ => ?_, fun v v' hv _ => ?_, fun hpq v hv => ?_, fun hpq v _ => ?_⟩
  · exact (toneExact_natCast p q 0).trans (congrArg Nat.cast (toneCurve_zero hp hq))
  · exact (toneExact_natCast p q 255).trans (congrArg Nat.cast (toneCurve_255 hp))
  · exact ⟨toneCurve p q v, toneCurve_le_255 hp, toneExact_natCast p q v⟩
  · rw [toneExact_natCast, toneExact_natCast]
    exact Nat.cast_le.2 (toneCurve_mono hp hv)
  · rw [toneExact_natCast]
    exact Nat.cast_le.2 (le_toneCurve_self hp hpq.le hv)
  · rw [toneExact_natCast]
    exact Nat.cast_le.2 (toneCurve_le_self hp hpq)

end Sys2Proof.Machine
end

section
/-! SUPPORT. When TONE is bypassed, and what it leaves in LUM. -/

namespace Sys2Proof.Machine

open Sys2Proof

/-! ### GAMMA as a signed number -/

/-- GAMMA with bit 15 clear is its unsigned value (R13). -/
theorem gamma_toInt_of_nonneg {gamma : Half} (h : gamma.getLsbD 15 = false) : gamma.toInt = gamma.toNat := by
  have hmsb : gamma.msb = false := (BitVec.msb_eq_getLsbD_last gamma).trans h
  exact BitVec.toInt_eq_toNat_of_msb hmsb

/-- GAMMA with bit 15 set is negative (R13). -/
theorem gamma_toInt_neg {gamma : Half} (h : gamma.getLsbD 15 = true) : gamma.toInt < 0 := by
  have hmsb : gamma.msb = true := (BitVec.msb_eq_getLsbD_last gamma).trans h
  exact BitVec.toInt_neg_of_msb_true hmsb

/-- R91's condition on the register's bits. -/
theorem toneBypassed_iff (gamma : Half) :
    toneBypassed gamma = true ↔ gamma.getLsbD 15 = true ∨ gamma = 0#16 ∨ gamma = 0x0100#16 := by
  rw [toneBypassed, Bool.or_eq_true, decide_eq_true_iff, decide_eq_true_iff]
  cases hsign : gamma.getLsbD 15 with
  | true =>
    have := gamma_toInt_neg hsign
    simp [this.le]
  | false =>
    rw [gamma_toInt_of_nonneg hsign]
    simp only [Bool.false_eq_true, false_or]
    bv_omega

/-! ### The stage -/

theorem toneGrid_of_bypassed (p : Params) (free : Nat → LumNum) {gamma : Half} (w h : Nat) (lum : Mem LumNum)
    (hb : toneBypassed gamma = true) : toneGrid p free gamma w h lum = lum := by
  rw [toneGrid, if_pos hb]

/-- Not bypassed, TONE applies the curve to every element of the grid (R90). -/
theorem toneGrid_read (p : Params) (free : Nat → LumNum) {gamma : Half} (w h : Nat) (lum : Mem LumNum)
    (hb : ¬ toneBypassed gamma = true) {x y : Nat} (hx : x < w) (hy : y < h) :
    memRead free (toneGrid p free gamma w h lum) (pixelAddr w x y)
      = p.toneFn gamma.toInt.toNat 256 (memRead free lum (pixelAddr w x y)) := by
  rw [toneGrid, if_neg hb, mapGrid_read _ _ _ _ _ hx hy]

/-- TONE leaves every element outside the grid as it was (R48). -/
theorem toneGrid_outside (p : Params) (free : Nat → LumNum) (gamma : Half) (w h : Nat) (lum : Mem LumNum) {a : Nat}
    (ha : w * h ≤ a) : memRead free (toneGrid p free gamma w h lum) a = memRead free lum a := by
  unfold toneGrid
  split
  · rfl
  · exact mapGrid_outside _ _ _ _ _ ha

/-- TONE with the spec's parameters, not bypassed, leaves the exact curve's value where a natural stood (R92). -/
theorem toneStage_readLum {s : State} (hsign : s.job.gamma.getLsbD 15 = false)
    (hb : ¬ toneBypassed s.job.gamma = true) {x y v : Nat} (hx : x < s.width) (hy : y < s.height)
    (hv : s.readLum (pixelAddr s.width x y) = (v : LumNum)) :
    (toneStage Params.adopted s).readLum (pixelAddr s.width x y) = (toneCurve s.job.gamma.toNat 256 v : LumNum) :=
  calc (toneStage Params.adopted s).readLum (pixelAddr s.width x y)
      = toneExact s.job.gamma.toInt.toNat 256 (s.readLum (pixelAddr s.width x y)) :=
        toneGrid_read Params.adopted (Config.lumAtReset s.resets) s.width s.height s.lum hb hx hy
    _ = toneCurve s.job.gamma.toNat 256 v := by
        rw [hv, toneExact_natCast, gamma_toInt_of_nonneg hsign, Int.toNat_natCast]

/-- Settles O19: bypassed, TONE hands LUM on unchanged. -/
theorem toneBypassKeepsLum : Obligations.ToneBypassKeepsLum := by
  intro s hgamma
  change Host.Outcome.next (toneStage Params.adopted s) = _
  rw [toneStage, toneGrid_of_bypassed _ _ _ _ _ ((toneBypassed_iff _).2 hgamma)]
  rfl

/-- Settles O20: TONE leaves the curve's value, which is the greatest candidate. -/
theorem toneCurveIsLargestFit : Obligations.ToneCurveIsLargestFit := by
  intro s hsign hzero hone
  have hb : ¬ toneBypassed s.job.gamma = true := by
    rw [toneBypassed_iff, hsign]
    simp [hzero, hone]
  have hp : 0 < s.job.gamma.toNat := Nat.pos_of_ne_zero fun h => hzero (BitVec.eq_of_toNat_eq h)
  refine ⟨toneStage Params.adopted s, rfl, rfl, fun x y v hx hy _ hv => ?_, fun a ha => ?_⟩
  · exact ⟨toneCurve s.job.gamma.toNat 256 v, toneCurve_le_255 hp, toneStage_readLum hsign hb hx hy hv,
      toneCurve_inequality hp, fun _ => le_toneCurve hp⟩
  · exact toneGrid_outside Params.adopted _ _ _ _ _ ha

end Sys2Proof.Machine
end

section
/-! SUPPORT. The scan orders of the error-diffusion modes as lists of directed visits: who comes before whom, and the loops as
folds over them (R102, R110). -/

namespace Sys2Proof.Machine

open Sys2Proof

/-! ### Loops as folds -/

theorem forUp_eq_foldl {σ : Type} (f : Nat → σ → σ) (n : Nat) (s : σ) :
    forUp n f s = (List.range n).foldl (fun s i => f i s) s := by
  induction n with
  | zero => rfl
  | succ n ih => rw [forUp, ih, List.range_succ, List.foldl_append, List.foldl_cons, List.foldl_nil]

theorem forDown_eq_foldl {σ : Type} (f : Nat → σ → σ) (n : Nat) (s : σ) :
    forDown n f s = (List.range n).reverse.foldl (fun s i => f i s) s := by
  induction n generalizing s with
  | zero => rfl
  | succ n ih => rw [forDown, ih, List.range_succ, List.reverse_append, List.reverse_singleton, List.singleton_append,
      List.foldl_cons]

/-- Q.FS's loop is the fold of its visits (R102). -/
theorem fsGrid_eq_fsVisits (p : Params) (free : Nat → LumNum) (w h : Nat) (m : Mem LumNum) :
    fsGrid p free w h m = fsVisits p free w h (serpentine w h) m := by
  rw [fsGrid, fsVisits, serpentine, forUp_eq_foldl, List.foldl_flatMap]
  congr 1
  funext m y
  split
  · rw [forUp_eq_foldl, List.foldl_map]
  · rw [forDown_eq_foldl, List.foldl_map]

/-- Q.ATK's loop is the fold of its visits (R110). -/
theorem atkGrid_eq_atkVisits (p : Params) (free : Nat → LumNum) (w h : Nat) (m : Mem LumNum) :
    atkGrid p free w h m = atkVisits p free w h (raster w h) m := by
  rw [atkGrid, forGrid, atkVisits, raster, forUp_eq_foldl, List.foldl_flatMap]
  congr 1
  funext m y
  rw [forUp_eq_foldl, List.foldl_map]

/-! ### The order of the visits -/

/-- Visit `u` (direction, column, row) comes before `v` in a scan: in a row above, or in the same row behind `v`. -/
def ScannedBefore (u v : Int × Nat × Nat) : Prop :=
  u.2.2 < v.2.2 ∨ u.2.2 = v.2.2 ∧ u.1 = v.1 ∧ v.1 * (u.2.1 : Int) < v.1 * (v.2.1 : Int)

theorem ScannedBefore.pixel_ne {u v : Int × Nat × Nat} (huv : ScannedBefore u v) : u.2 ≠ v.2 := by
  intro he
  rcases huv with hrow | ⟨-, -, hcol⟩
  · rw [he] at hrow
    exact lt_irrefl _ hrow
  · rw [he] at hcol
    exact lt_irrefl _ hcol

/-- A scan visits no pixel twice. -/
theorem nodup_pixels_of_scan {order : List (Int × Nat × Nat)} (ho : order.Pairwise ScannedBefore) :
    (order.map fun v => v.2).Nodup :=
  ho.map _ fun _ _ huv => huv.pixel_ne

/-- The order of Q.ATK with its one direction, left to right. -/
def directedRaster (w h : Nat) : List (Int × Nat × Nat) := (raster w h).map fun v => ((1 : Int), v)

theorem map_pixel_directedRaster (w h : Nat) : ((directedRaster w h).map fun v => v.2) = raster w h := by
  simp [directedRaster]

theorem mem_serpentine {w h x y : Nat} {d : Int} :
    (d, x, y) ∈ serpentine w h ↔ x < w ∧ y < h ∧ d = if y % 2 = 0 then 1 else -1 := by
  rw [serpentine, List.mem_flatMap]
  constructor
  · rintro ⟨y', hy', hv⟩
    rw [List.mem_range] at hy'
    split at hv
    · rename_i hpar
      obtain ⟨hx, rfl, rfl⟩ : x < w ∧ 1 = d ∧ y' = y := by simpa using hv
      exact ⟨hx, hy', (if_pos hpar).symm⟩
    · rename_i hpar
      obtain ⟨hx, rfl, rfl⟩ : x < w ∧ -1 = d ∧ y' = y := by simpa using hv
      exact ⟨hx, hy', (if_neg hpar).symm⟩
  · rintro ⟨hx, hy, rfl⟩
    refine ⟨y, List.mem_range.2 hy, ?_⟩
    split <;> simpa using hx

theorem mem_raster {w h x y : Nat} : (x, y) ∈ raster w h ↔ x < w ∧ y < h := by
  simp [raster, and_comm]

theorem serpentine_inGrid {w h : Nat} : ∀ v ∈ serpentine w h, v.2.1 < w ∧ v.2.2 < h := by
  intro v hv
  obtain ⟨hx, hy, -⟩ := mem_serpentine.1 hv
  exact ⟨hx, hy⟩

theorem directedRaster_inGrid {w h : Nat} : ∀ v ∈ directedRaster w h, v.2.1 < w ∧ v.2.2 < h := by
  intro v hv
  obtain ⟨u, hu, rfl⟩ := List.mem_map.1 hv
  exact mem_raster.1 hu

/-- A list of rows from top to bottom, each scanned in one direction, is a scan. -/
theorem pairwise_scannedBefore_rows {h : Nat} {row : Nat → List (Int × Nat × Nat)}
    (hrow : ∀ y, ∀ v ∈ row y, v.2.2 = y) (hscan : ∀ y, (row y).Pairwise ScannedBefore) :
    ((List.range h).flatMap row).Pairwise ScannedBefore := by
  refine List.pairwise_flatMap.2 ⟨fun y _ => hscan y, List.pairwise_lt_range.imp fun hlt u hu v hv => .inl ?_⟩
  rwa [hrow _ u hu, hrow _ v hv]

theorem pairwise_scannedBefore_rightward (w y : Nat) :
    ((List.range w).map fun x => ((1 : Int), x, y)).Pairwise ScannedBefore :=
  List.pairwise_lt_range.map _ fun a b hab => .inr ⟨rfl, rfl, by simpa using hab⟩

theorem pairwise_scannedBefore_leftward (w y : Nat) :
    ((List.range w).reverse.map fun x => ((-1 : Int), x, y)).Pairwise ScannedBefore :=
  (List.pairwise_reverse.2 List.pairwise_lt_range).map _ fun a b hab => .inr ⟨rfl, rfl, by simpa using hab⟩

theorem pairwise_scannedBefore_serpentine (w h : Nat) : (serpentine w h).Pairwise ScannedBefore := by
  refine pairwise_scannedBefore_rows (fun y v hv => ?_) fun y => ?_
  · split at hv <;> obtain ⟨x, -, rfl⟩ := List.mem_map.1 hv <;> rfl
  · split
    · exact pairwise_scannedBefore_rightward w y
    · exact pairwise_scannedBefore_leftward w y

theorem pairwise_scannedBefore_directedRaster (w h : Nat) : (directedRaster w h).Pairwise ScannedBefore := by
  rw [directedRaster, raster, List.map_flatMap]
  refine pairwise_scannedBefore_rows (fun y v hv => ?_) fun y => ?_
  · simp only [List.map_map, List.mem_map] at hv
    obtain ⟨x, -, rfl⟩ := hv
    rfl
  · rw [List.map_map]
    exact pairwise_scannedBefore_rightward w y

theorem nodup_raster (w h : Nat) : (raster w h).Nodup := by
  rw [← map_pixel_directedRaster]
  exact nodup_pixels_of_scan (pairwise_scannedBefore_directedRaster w h)

/-- Settles O29: the loops are folds over the two orders, which are scans and so visit no pixel twice. -/
theorem diffusionScanOrder : Obligations.DiffusionScanOrder := by
  refine ⟨fun p free w h m => ⟨fsGrid_eq_fsVisits p free w h m, atkGrid_eq_atkVisits p free w h m⟩,
    fun w h => nodup_pixels_of_scan (pairwise_scannedBefore_serpentine w h), fun w h x y => ?_,
    nodup_raster, fun w h x y => mem_raster⟩
  simp [mem_serpentine]

end Sys2Proof.Machine
end

section
/-! SUPPORT. What one visit of an error-diffusion mode leaves in LUM: for every rounding, the decided pixel and everything that is
no target; in exact arithmetic, every pixel. -/

namespace Sys2Proof.Machine

open Sys2Proof

/-! ### Adding shares -/

section
variable (p : Params) (free : Nat → LumNum) {w h x' y' : Nat} (hx' : x' < w) (hy' : y' < h)
include hx' hy'

/-- `add` changes its target and no other pixel of the grid: nothing wraps (R48, R105). -/
theorem addShare_read (x y : Int) (delta : LumNum) (m : Mem LumNum) :
    memRead free (addShare p free w h x y delta m) (pixelAddr w x' y') =
      if x = x' ∧ y = y' then p.rnd (memRead free m (pixelAddr w x' y') + delta) else memRead free m (pixelAddr w x' y') := by
  rw [addShare]
  by_cases htarget : x = x' ∧ y = y'
  · obtain ⟨rfl, rfl⟩ := htarget
    have hin : inGrid w h x' y' = true := inGrid_iff.2 (by omega)
    simp [hin]
  · rw [if_neg htarget]
    split
    · rename_i hin
      obtain ⟨hx0, hx1, hy0, hy1⟩ := inGrid_iff.1 hin
      refine memRead_memSet_other _ _ _ fun he => htarget ?_
      have := pixelAddr_inj hx' (by omega) he
      omega
    · rfl

/-- A run of `add`s leaves a pixel alone that is no target of them. -/
theorem foldl_addShare_read_of_not_target (x y : Int) (l : List Share) (m : Mem LumNum)
    (hl : ∀ t ∈ l, ¬ (x + t.dx = x' ∧ y + t.dy = y')) :
    memRead free (l.foldl (fun m t => addShare p free w h (x + t.dx) (y + t.dy) t.amount m) m) (pixelAddr w x' y') =
      memRead free m (pixelAddr w x' y') := by
  induction l generalizing m with
  | nil => rfl
  | cons t l ih =>
    rw [List.foldl_cons, ih _ fun u hu => hl u (List.mem_cons_of_mem _ hu), addShare_read p free hx' hy',
      if_neg (hl t List.mem_cons_self)]

end

/-! ### A visit, for every rounding -/

/-- The share goes to a pixel that a scan in direction `d` has not yet visited (R104, R111). -/
def Share.Ahead (d : Int) (t : Share) : Prop := 0 < t.dy ∨ t.dy = 0 ∧ 0 < d * t.dx

theorem fsShares_ahead (p : Params) {d : Int} (hd : d = 1 ∨ d = -1) (err : LumNum) : ∀ t ∈ fsShares p d err, t.Ahead d := by
  rcases hd with rfl | rfl <;> simp [fsShares, Share.Ahead]

theorem atkShares_ahead (p : Params) (diff : LumNum) : ∀ t ∈ atkShares p diff, t.Ahead 1 := by
  simp [atkShares, Share.Ahead]

/-- A share that goes ahead reaches no pixel already visited. -/
theorem Share.Ahead.not_target {u v : Int × Nat × Nat} {t : Share} (ht : t.Ahead v.1) (huv : ScannedBefore u v) :
    ¬ ((v.2.1 : Int) + t.dx = u.2.1 ∧ (v.2.2 : Int) + t.dy = u.2.2) := by
  rintro ⟨hx, hy⟩
  rcases ht with hdy | ⟨hdy, hdx⟩
  · rcases huv with hrow | ⟨hrow, -, -⟩ <;> omega
  · rcases huv with hrow | ⟨-, -, hcol⟩
    · omega
    · rw [← hx, mul_add] at hcol
      omega

theorem Share.Ahead.not_self {d : Int} {t : Share} (ht : t.Ahead d) (x y : Nat) :
    ¬ ((x : Int) + t.dx = x ∧ (y : Int) + t.dy = y) := by
  rintro ⟨hx, hy⟩
  rcases ht with hdy | ⟨-, hdx⟩
  · omega
  · rw [show t.dx = 0 by omega, mul_zero] at hdx
    exact lt_irrefl _ hdx

/-- The visited pixel holds the decision (R103, R112). -/
theorem visit_read_self (p : Params) (free : Nat → LumNum) {shares : LumNum → List Share} {w h x y : Nat} {d : Int}
    (m : Mem LumNum) (hahead : ∀ err, ∀ t ∈ shares err, t.Ahead d) (hx : x < w) (hy : y < h) :
    memRead free (visit p free shares w h x y m) (pixelAddr w x y) = decide128 (memRead free m (pixelAddr w x y)) := by
  rw [visit, foldl_addShare_read_of_not_target p free hx hy _ _ _ _ fun t ht => (hahead _ t ht).not_self x y,
    memRead_memSet_same]

/-- A visit leaves the pixels alone that the scan has visited before (R104, R120). -/
theorem visit_read_visited (p : Params) (free : Nat → LumNum) {shares : LumNum → List Share} {w h : Nat}
    {u v : Int × Nat × Nat} (m : Mem LumNum) (hahead : ∀ err, ∀ t ∈ shares err, t.Ahead v.1) (huv : ScannedBefore u v)
    (hux : u.2.1 < w) (huy : u.2.2 < h) (hvx : v.2.1 < w) :
    memRead free (visit p free shares w h v.2.1 v.2.2 m) (pixelAddr w u.2.1 u.2.2) =
      memRead free m (pixelAddr w u.2.1 u.2.2) := by
  rw [visit, foldl_addShare_read_of_not_target p free hux huy _ _ _ _ fun t ht => (hahead _ t ht).not_target huv,
    memRead_memSet_other _ _ _ fun he => huv.pixel_ne (Prod.ext_iff.2 (pixelAddr_inj hux hvx he))]

/-! ### A visit in exact arithmetic -/

/-- The shares of a mode for error `err` in direction `d`: each entry of the kernel gives its target, mirrored by the direction, its
amount of the error. -/
def kernelShares (kernel : List Share) (d : Int) (err : LumNum) : List Share :=
  kernel.map fun t => ⟨d * t.dx, t.dy, t.amount * err⟩

/-- The part of the error the kernel gives the neighbour at offset `(dx, dy)` in direction `d`. -/
def kernelWeight (kernel : List Share) (d dx dy : Int) : LumNum :=
  (kernel.map fun t => if d * t.dx = dx ∧ t.dy = dy then t.amount else 0).sum

/-- The weights of Q.FS in an even row (R104). -/
def fsKernel : List Share := [⟨1, 0, 7 / 16⟩, ⟨-1, 1, 3 / 16⟩, ⟨0, 1, 5 / 16⟩, ⟨1, 1, 1 / 16⟩]

/-- The weights of Q.ATK (R111). -/
def atkKernel : List Share := [⟨1, 0, 1 / 8⟩, ⟨2, 0, 1 / 8⟩, ⟨-1, 1, 1 / 8⟩, ⟨0, 1, 1 / 8⟩, ⟨1, 1, 1 / 8⟩, ⟨0, 2, 1 / 8⟩]

theorem fsShares_eq_kernelShares {p : Params} (hexact : ∀ v, p.rnd v = v) : fsShares p = kernelShares fsKernel := by
  funext d err
  simp [fsShares, sixteenth, kernelShares, fsKernel, hexact, div_eq_inv_mul, mul_comm err, mul_assoc]

theorem atkShares_eq_kernelShares {p : Params} (hexact : ∀ v, p.rnd v = v) : atkShares p = kernelShares atkKernel 1 := by
  funext diff
  simp [atkShares, kernelShares, atkKernel, hexact, div_eq_inv_mul]

theorem kernelWeight_fsKernel {d : Int} (hd : d = 1 ∨ d = -1) (dx dy : Int) :
    kernelWeight fsKernel d dx dy = fsWeight d dx dy := by
  have hrow : dy = 0 ∨ dy = 1 ∨ dy ≠ 0 ∧ dy ≠ 1 := by omega
  rcases hrow with rfl | rfl | ⟨h0, h1⟩
  · simp [kernelWeight, fsKernel, fsWeight, eq_comm]
  · rcases hd with rfl | rfl
    all_goals
      simp [kernelWeight, fsKernel, fsWeight]
      grind
  · simp [kernelWeight, fsKernel, fsWeight, h0, h1, h0.symm, h1.symm]

theorem kernelWeight_atkKernel (dx dy : Int) : kernelWeight atkKernel 1 dx dy = atkWeight dx dy := by
  have hrow : dy = 0 ∨ dy = 1 ∨ dy = 2 ∨ dy ≠ 0 ∧ dy ≠ 1 ∧ dy ≠ 2 := by omega
  rcases hrow with rfl | rfl | rfl | ⟨h0, h1, h2⟩
  · simp [kernelWeight, atkKernel, atkWeight]
    grind
  · simp [kernelWeight, atkKernel, atkWeight]
    grind
  · simp [kernelWeight, atkKernel, atkWeight, eq_comm]
  · simp [kernelWeight, atkKernel, atkWeight, h0, h1, h2, h0.symm, h1.symm, h2.symm]

theorem foldl_addShare_kernelShares {p : Params} (hexact : ∀ v, p.rnd v = v) (free : Nat → LumNum) {w h x' y' : Nat}
    (hx' : x' < w) (hy' : y' < h) (x y : Int) (kernel : List Share) (d : Int) (err : LumNum) (m : Mem LumNum) :
    memRead free ((kernelShares kernel d err).foldl (fun m t => addShare p free w h (x + t.dx) (y + t.dy) t.amount m) m)
        (pixelAddr w x' y') =
      memRead free m (pixelAddr w x' y') + kernelWeight kernel d (x' - x) (y' - y) * err := by
  induction kernel generalizing m with
  | nil => simp [kernelShares, kernelWeight]
  | cons t kernel ih =>
    have htarget : (x + d * t.dx = x' ∧ y + t.dy = y') ↔ (d * t.dx = x' - x ∧ t.dy = y' - y) := by omega
    rw [kernelShares] at ih ⊢
    rw [List.map_cons, List.foldl_cons, ih, addShare_read p free hx' hy', hexact, kernelWeight, kernelWeight, List.map_cons,
      List.sum_cons]
    simp only [htarget]
    split <;> ring

/-- A visit gives each other pixel of the grid its weight of the error and changes nothing else in the grid. -/
theorem visit_read_other {p : Params} (hexact : ∀ v, p.rnd v = v) (free : Nat → LumNum) (kernel : List Share) (d : Int)
    {w h x y x' y' : Nat} (m : Mem LumNum) (hx : x < w) (hx' : x' < w) (hy' : y' < h) (hne : (x', y') ≠ (x, y)) :
    memRead free (visit p free (kernelShares kernel d) w h x y m) (pixelAddr w x' y') =
      memRead free m (pixelAddr w x' y') + kernelWeight kernel d ((x' : Int) - x) ((y' : Int) - y) *
        (memRead free m (pixelAddr w x y) - decide128 (memRead free m (pixelAddr w x y))) := by
  rw [visit, hexact, foldl_addShare_kernelShares hexact free hx' hy',
    memRead_memSet_other _ _ _ fun he => hne (Prod.ext_iff.2 (pixelAddr_inj hx' hx he))]

/-- Settles O27: with the weights of Q.FS's kernel. -/
theorem floydSteinbergVisit : Obligations.FloydSteinbergVisit := by
  intro p free w h x y d m hexact hd hx hy
  refine ⟨visit_read_self p free m (fsShares_ahead p hd) hx hy, fun x' y' hx' hy' hne => ?_,
    fun a ha => visit_outside p free _ m hx hy ha⟩
  rw [fsShares_eq_kernelShares hexact, visit_read_other hexact free fsKernel d m hx hx' hy' hne, kernelWeight_fsKernel hd,
    decide128]

/-- Settles O28: with the weights of Q.ATK's kernel. -/
theorem atkinsonVisit : Obligations.AtkinsonVisit := by
  intro p free w h x y m hexact hx hy
  refine ⟨visit_read_self p free m (atkShares_ahead p) hx hy, fun x' y' hx' hy' hne => ?_,
    fun a ha => visit_outside p free _ m hx hy ha⟩
  rw [atkShares_eq_kernelShares hexact, visit_read_other hexact free atkKernel 1 m hx hx' hy' hne, kernelWeight_atkKernel,
    decide128]

end Sys2Proof.Machine
end

section
/-! SUPPORT. A run of visits along a scan: what is visited stays black or white, what is not yet visited stays in range. -/

namespace Sys2Proof.Machine

open Sys2Proof

/-- The visits of a part of a scan, with shares that depend on the direction: `fsVisits` and `atkVisits` in one form. -/
def visits (p : Params) (free : Nat → LumNum) (shares : Int → LumNum → List Share) (w h : Nat)
    (order : List (Int × Nat × Nat)) (m : Mem LumNum) : Mem LumNum :=
  order.foldl (fun m v => visit p free (shares v.1) w h v.2.1 v.2.2 m) m

theorem fsVisits_eq_visits (p : Params) (free : Nat → LumNum) (w h : Nat) (order : List (Int × Nat × Nat)) (m : Mem LumNum) :
    fsVisits p free w h order m = visits p free (fsShares p) w h order m := rfl

theorem atkVisits_eq_visits (p : Params) (free : Nat → LumNum) {shares : Int → LumNum → List Share}
    (hshares : shares 1 = atkShares p) (w h : Nat) (order : List (Nat × Nat)) (m : Mem LumNum) :
    atkVisits p free w h order m = visits p free shares w h (order.map fun v => ((1 : Int), v)) m := by
  rw [atkVisits, visits, List.foldl_map, ← hshares]

theorem visits_concat (p : Params) (free : Nat → LumNum) (shares : Int → LumNum → List Share) (w h : Nat)
    (order : List (Int × Nat × Nat)) (v : Int × Nat × Nat) (m : Mem LumNum) :
    visits p free shares w h (order ++ [v]) m =
      visit p free (shares v.1) w h v.2.1 v.2.2 (visits p free shares w h order m) := by
  rw [visits, List.foldl_append, List.foldl_cons, List.foldl_nil, visits]

theorem decide128_eq_zero_or_255 (v : LumNum) : decide128 v = 0 ∨ decide128 v = 255 := by
  rw [decide128]
  exact ite_eq_or_eq _ _ _

/-- After a scan whose shares all go ahead, every visited pixel is 0 or 255, whatever the rounding (R120, R125). -/
theorem visits_read_visited (p : Params) (free : Nat → LumNum) {shares : Int → LumNum → List Share} {w h : Nat}
    {order : List (Int × Nat × Nat)} (m : Mem LumNum) (hscan : order.Pairwise ScannedBefore)
    (hgrid : ∀ v ∈ order, v.2.1 < w ∧ v.2.2 < h) (hahead : ∀ v ∈ order, ∀ err, ∀ t ∈ shares v.1 err, t.Ahead v.1) :
    ∀ u ∈ order, memRead free (visits p free shares w h order m) (pixelAddr w u.2.1 u.2.2) = 0 ∨
      memRead free (visits p free shares w h order m) (pixelAddr w u.2.1 u.2.2) = 255 := by
  induction order using List.reverseRecOn with
  | nil => exact fun u hu => absurd hu List.not_mem_nil
  | append_singleton order v ih =>
    obtain ⟨hscan, -, hbefore⟩ := List.pairwise_append.1 hscan
    have hlast : v ∈ order ++ [v] := List.mem_append_right _ List.mem_cons_self
    obtain ⟨hvx, hvy⟩ := hgrid v hlast
    rw [visits_concat]
    intro u hu
    rcases List.mem_append.1 hu with hold | hnew
    · obtain ⟨hux, huy⟩ := hgrid u hu
      rw [visit_read_visited p free _ (hahead v hlast) (hbefore u hold v List.mem_cons_self) hux huy hvx]
      exact ih hscan (fun a ha => hgrid a (List.mem_append_left _ ha))
        (fun a ha => hahead a (List.mem_append_left _ ha)) u hold
    · obtain rfl := List.mem_singleton.1 hnew
      rw [visit_read_self p free _ (hahead u hlast) hvx hvy]
      exact decide128_eq_zero_or_255 _

end Sys2Proof.Machine
end

section
/-! SUPPORT. The ranges of R122, in exact arithmetic: what a pixel has received before its own visit, and how much that can be. -/

namespace Sys2Proof.Machine

open Sys2Proof

/-! ### What a pixel can receive -/

/-- The sum of the weights that the visits of a part of a scan give to pixel `(x, y)`. -/
def received (kernel : List Share) (order : List (Int × Nat × Nat)) (x y : Nat) : LumNum :=
  (order.map fun v => kernelWeight kernel v.1 ((x : Int) - v.2.1) ((y : Int) - v.2.2)).sum

theorem received_concat (kernel : List Share) (order : List (Int × Nat × Nat)) (v : Int × Nat × Nat) (x y : Nat) :
    received kernel (order ++ [v]) x y =
      received kernel order x y + kernelWeight kernel v.1 ((x : Int) - v.2.1) ((y : Int) - v.2.2) := by
  simp [received]

theorem kernelWeight_nonneg {kernel : List Share} (hpos : ∀ t ∈ kernel, 0 ≤ t.amount) (d dx dy : Int) :
    0 ≤ kernelWeight kernel d dx dy := by
  refine List.sum_nonneg fun a ha => ?_
  obtain ⟨t, ht, rfl⟩ := List.mem_map.1 ha
  split
  · exact hpos t ht
  · exact le_rfl

/-- A sum with at most one summand that is not 0. -/
theorem sum_indicator_le {β : Type} {c : LumNum} (hc : 0 ≤ c) (P : β → Prop) [DecidablePred P] {l : List β}
    (honce : l.Pairwise fun u v => P u → ¬ P v) : (l.map fun v => if P v then c else 0).sum ≤ c := by
  induction l with
  | nil => exact hc
  | cons u l ih =>
    obtain ⟨hu, honce⟩ := List.pairwise_cons.1 honce
    rw [List.map_cons, List.sum_cons]
    split
    · rename_i hP
      rw [List.map_congr_left (g := fun _ => (0 : LumNum)) fun v hv => if_neg (hu v hv hP)]
      simp
    · rw [zero_add]
      exact ih honce

/-- One entry of the kernel reaches a pixel from at most one visit of a scan. -/
theorem ScannedBefore.target_ne {u v : Int × Nat × Nat} (huv : ScannedBefore u v) {dx dy x y : Int}
    (hu : u.1 * dx = x - u.2.1 ∧ dy = y - u.2.2) : ¬ (v.1 * dx = x - v.2.1 ∧ dy = y - v.2.2) := by
  rintro ⟨hvx, hvy⟩
  obtain ⟨hux, huy⟩ := hu
  rcases huv with hrow | ⟨-, hd, hcol⟩
  · omega
  · rw [hd] at hux
    have hsame : (u.2.1 : Int) = v.2.1 := by omega
    rw [hsame] at hcol
    exact lt_irrefl _ hcol

/-- A pixel receives each entry of the kernel at most once (R122). -/
theorem received_le {kernel : List Share} (hpos : ∀ t ∈ kernel, 0 ≤ t.amount) {order : List (Int × Nat × Nat)}
    (hscan : order.Pairwise ScannedBefore) (x y : Nat) :
    received kernel order x y ≤ (kernel.map fun t => t.amount).sum := by
  induction kernel with
  | nil => simp [received, kernelWeight]
  | cons t kernel ih =>
    have hentry := sum_indicator_le (hpos t List.mem_cons_self)
      (fun v : Int × Nat × Nat => v.1 * t.dx = (x : Int) - v.2.1 ∧ t.dy = (y : Int) - v.2.2)
      (hscan.imp fun huv => huv.target_ne)
    have hrest := ih fun u hu => hpos u (List.mem_cons_of_mem _ hu)
    simp only [received, kernelWeight] at hrest
    simp only [received, kernelWeight, List.map_cons, List.sum_cons, List.sum_map_add]
    exact add_le_add hentry hrest

/-! ### The ranges along a scan -/

/-- The last pixel of a scan has not been visited before. -/
theorem unvisited_of_scan {order : List (Int × Nat × Nat)} {v : Int × Nat × Nat}
    (hscan : (order ++ [v]).Pairwise ScannedBefore) : v.2 ∉ order.map fun u => u.2 := by
  intro hmem
  obtain ⟨u, hu, he⟩ := List.mem_map.1 hmem
  obtain ⟨-, -, hbefore⟩ := List.pairwise_append.1 hscan
  exact (hbefore u hu v List.mem_cons_self).pixel_ne he

/-- A value at most 128 outside 0 to 255 has an error of at most 128. -/
theorem error_range {v : LumNum} (hlo : -128 ≤ v) (hhi : v ≤ 383) : -128 ≤ v - decide128 v ∧ v - decide128 v ≤ 128 := by
  rw [decide128]
  split <;> constructor <;> linarith

section
variable {p : Params} (hexact : ∀ v, p.rnd v = v) (free : Nat → LumNum) {kernel : List Share}
  (hpos : ∀ t ∈ kernel, 0 ≤ t.amount) {total : LumNum} (hsum : (kernel.map fun t => t.amount).sum = total)
  (htotal : total ≤ 1) {w h : Nat} {m : Mem LumNum}
  (hinput : ∀ x y, x < w → y < h → 0 ≤ memRead free m (pixelAddr w x y) ∧ memRead free m (pixelAddr w x y) ≤ 255)
include hexact hpos hsum htotal hinput

/-- A pixel not yet visited has left 0 to 255 by at most 128 times the weight it has received. -/
theorem visits_read_unvisited {order : List (Int × Nat × Nat)} (hscan : order.Pairwise ScannedBefore)
    (hgrid : ∀ v ∈ order, v.2.1 < w ∧ v.2.2 < h) {x y : Nat} (hx : x < w) (hy : y < h)
    (hunvisited : (x, y) ∉ order.map fun v => v.2) :
    -128 * received kernel order x y ≤ memRead free (visits p free (kernelShares kernel) w h order m) (pixelAddr w x y) ∧
    memRead free (visits p free (kernelShares kernel) w h order m) (pixelAddr w x y) ≤ 255 + 128 * received kernel order x y := by
  induction order using List.reverseRecOn generalizing x y with
  | nil => simpa [received, visits] using hinput x y hx hy
  | append_singleton order v ih =>
    rw [List.map_append, List.mem_append, not_or, List.map_singleton, List.mem_singleton] at hunvisited
    have hscan' := (List.pairwise_append.1 hscan).1
    obtain ⟨hvx, hvy⟩ := hgrid v (List.mem_append_right _ List.mem_cons_self)
    have hgrid' : ∀ u ∈ order, u.2.1 < w ∧ u.2.2 < h := fun u hu => hgrid u (List.mem_append_left _ hu)
    obtain ⟨hlo, hhi⟩ := ih hscan' hgrid' hx hy hunvisited.1
    obtain ⟨hvlo, hvhi⟩ := ih hscan' hgrid' hvx hvy (unvisited_of_scan hscan)
    have hone := (received_le hpos hscan' v.2.1 v.2.2).trans (hsum.trans_le htotal)
    obtain ⟨herrlo, herrhi⟩ := error_range (hvlo.trans' (by linarith)) (hvhi.trans (by linarith))
    have hweight := kernelWeight_nonneg hpos v.1 ((x : Int) - v.2.1) ((y : Int) - v.2.2)
    have hsharelo := mul_le_mul_of_nonneg_left herrlo hweight
    have hsharehi := mul_le_mul_of_nonneg_left herrhi hweight
    rw [visits_concat, visit_read_other hexact free kernel v.1 _ hvx hx hy hunvisited.2, received_concat]
    constructor <;> linarith

/-- What a visit finds has left 0 to 255 by at most 128 times the kernel's total weight (R122). -/
theorem visits_value_range {order : List (Int × Nat × Nat)} (hscan : order.Pairwise ScannedBefore)
    (hgrid : ∀ v ∈ order, v.2.1 < w ∧ v.2.2 < h) {k x y : Nat} {d : Int} (hk : order[k]? = some (d, x, y)) :
    -128 * total ≤ memRead free (visits p free (kernelShares kernel) w h (order.take k) m) (pixelAddr w x y) ∧
    memRead free (visits p free (kernelShares kernel) w h (order.take k) m) (pixelAddr w x y) ≤ 255 + 128 * total := by
  obtain ⟨hx, hy⟩ := hgrid _ (List.mem_of_getElem? hk)
  have htake : (order.take (k + 1)).Pairwise ScannedBefore := hscan.sublist (List.take_sublist _ _)
  rw [List.take_add_one, hk, Option.toList_some] at htake
  have hscan' := (List.pairwise_append.1 htake).1
  obtain ⟨hlo, hhi⟩ := visits_read_unvisited hexact free hpos hsum htotal hinput hscan'
    (fun u hu => hgrid u (List.mem_of_mem_take hu)) hx hy (unvisited_of_scan htake)
  have hle := (received_le hpos hscan' x y).trans_eq hsum
  constructor <;> linarith

end

theorem fsKernel_nonneg : ∀ t ∈ fsKernel, 0 ≤ t.amount := by norm_num [fsKernel]

theorem sum_fsKernel : (fsKernel.map fun t => t.amount).sum = 1 := by norm_num [fsKernel]

theorem atkKernel_nonneg : ∀ t ∈ atkKernel, 0 ≤ t.amount := by simp [atkKernel]

theorem sum_atkKernel : (atkKernel.map fun t => t.amount).sum = 3 / 4 := by norm_num [atkKernel]

/-- Settles O30: the four weights of Q.FS sum to 1. -/
theorem floydSteinbergBounds : Obligations.FloydSteinbergBounds := by
  intro p free w h k x y d m hexact hinput hk oldp
  have hrange := visits_value_range hexact free fsKernel_nonneg sum_fsKernel le_rfl hinput
    (pairwise_scannedBefore_serpentine w h) serpentine_inGrid hk
  rw [← fsShares_eq_kernelShares hexact, ← fsVisits_eq_visits] at hrange
  obtain ⟨hlo, hhi⟩ : -128 * 1 ≤ oldp ∧ oldp ≤ 255 + 128 * 1 := hrange
  have hlo' : -128 ≤ oldp := by linarith
  have hhi' : oldp ≤ 383 := by linarith
  exact ⟨hhi', hlo', error_range hlo' hhi'⟩

/-- Settles O31: the six weights of Q.ATK sum to 3/4, and below 128 nothing is subtracted. -/
theorem atkinsonBounds : Obligations.AtkinsonBounds := by
  intro p free w h k x y m hexact hinput hk oldp
  have hk' : (directedRaster w h)[k]? = some (1, x, y) := by rw [directedRaster, List.getElem?_map, hk, Option.map_some]
  have hrange := visits_value_range hexact free atkKernel_nonneg sum_atkKernel (by norm_num) hinput
    (pairwise_scannedBefore_directedRaster w h) directedRaster_inGrid hk'
  rw [directedRaster, ← List.map_take, ← atkVisits_eq_visits p free (atkShares_eq_kernelShares hexact).symm] at hrange
  obtain ⟨hlo, hhi⟩ : -128 * (3 / 4) ≤ oldp ∧ oldp ≤ 255 + 128 * (3 / 4) := hrange
  rw [decide128]
  refine ⟨by linarith, by linarith, ?_⟩
  split <;> constructor <;> linarith

end Sys2Proof.Machine
end

section
/-! SUPPORT. The five quantizers on the whole grid. -/

namespace Sys2Proof.Machine

open Sys2Proof

/-! ### The order-independent modes -/

theorem thresholdPoint_eq_zero_or_255 (t : Nat) (v : LumNum) : thresholdPoint t v = 0 ∨ thresholdPoint t v = 255 := by
  rw [thresholdPoint]
  exact ite_eq_or_eq _ _ _

theorem orderedPoint_eq_zero_or_255 (n : Nat) (matrix : Nat → Nat → Nat) (x y : Nat) (v : LumNum) :
    orderedPoint n matrix x y v = 0 ∨ orderedPoint n matrix x y v = 255 := by
  rw [orderedPoint]
  exact ite_eq_or_eq _ _ _

/-- The integer comparison is the one with the rational threshold (R115). -/
theorem orderedPoint_eq_threshold {n : Nat} (hn : 0 < n) (matrix : Nat → Nat → Nat) (x y : Nat) (v : LumNum) :
    orderedPoint n matrix x y v =
      if v < ((matrix (y % n) (x % n) : LumNum) + 1 / 2) * (255 / (n : LumNum) ^ 2) then 0 else 255 := by
  have hpos : (0 : LumNum) < 2 * n ^ 2 := by positivity
  have hscale : ((matrix (y % n) (x % n) : LumNum) + 1 / 2) * (255 / (n : LumNum) ^ 2) =
      255 * (2 * matrix (y % n) (x % n) + 1) / (2 * n ^ 2) := by
    field_simp
  rw [orderedPoint, hscale]
  congr 1
  rw [lt_div_iff₀ hpos, eq_iff_iff]
  push_cast
  ring_nf

/-- The ordered rule sees the coordinates modulo the matrix size alone (R124). -/
theorem orderedPoint_congr (n : Nat) (matrix : Nat → Nat → Nat) {x y x' y' : Nat} (hx : x % n = x' % n) (hy : y % n = y' % n)
    (v : LumNum) : orderedPoint n matrix x y v = orderedPoint n matrix x' y' v := by
  rw [orderedPoint, orderedPoint, hx, hy]

section
variable (p : Params) (s : State) {x y : Nat} (hx : x < s.width) (hy : y < s.height)
include hx hy

theorem threshStage_readLum : (threshStage s).readLum (pixelAddr s.width x y) =
    thresholdPoint s.job.thresh.toNat (s.readLum (pixelAddr s.width x y)) :=
  mapGrid_read s.lumFree s.width s.height _ s.lum hx hy

theorem ord4Stage_readLum : (ord4Stage p s).readLum (pixelAddr s.width x y) =
    orderedPoint 4 p.bayer4 x y (s.readLum (pixelAddr s.width x y)) :=
  mapGrid_read s.lumFree s.width s.height _ s.lum hx hy

theorem ord8Stage_readLum : (ord8Stage p s).readLum (pixelAddr s.width x y) =
    orderedPoint 8 p.bayer8 x y (s.readLum (pixelAddr s.width x y)) :=
  mapGrid_read s.lumFree s.width s.height _ s.lum hx hy

end

/-- Settles O22: the stage differs in LUM and `stage` only, and its LUM is read inside and outside the grid. -/
theorem thresholdQuantizer : Obligations.ThresholdQuantizer := fun s =>
  ⟨threshStage s, rfl, rfl, fun _ _ hx hy => threshStage_readLum s hx hy, fun _ ha => mapGrid_outside _ _ _ _ _ ha⟩

/-- Settles O23: each point is the comparison with its rational threshold. -/
theorem orderedQuantizers : Obligations.OrderedQuantizers := by
  intro s
  refine ⟨⟨ord4Stage Params.adopted s, rfl, rfl, fun x y hx hy => ?_, fun a ha => mapGrid_outside _ _ _ _ _ ha⟩,
    ⟨ord8Stage Params.adopted s, rfl, rfl, fun x y hx hy => ?_, fun a ha => mapGrid_outside _ _ _ _ _ ha⟩⟩
  · rw [ord4Stage_readLum _ s hx hy, orderedPoint_eq_threshold (by decide), Nat.cast_ofNat]
  · rw [ord8Stage_readLum _ s hx hy, orderedPoint_eq_threshold (by decide), Nat.cast_ofNat]

/-- Settles O32: both pixels are read through one point function. -/
theorem orderedOutputIsTilePeriodic : Obligations.OrderedOutputIsTilePeriodic := by
  intro s s' t t' x y x' y' hx hy hx' hy' hv
  constructor
  · rintro ⟨⟩ ⟨⟩ hmx hmy
    rw [ord4Stage_readLum _ s hx hy, ord4Stage_readLum _ s' hx' hy', hv, orderedPoint_congr 4 _ hmx hmy]
  · rintro ⟨⟩ ⟨⟩ hmx hmy
    rw [ord8Stage_readLum _ s hx hy, ord8Stage_readLum _ s' hx' hy', hv, orderedPoint_congr 8 _ hmx hmy]

/-! ### Error diffusion -/

/-- Settles O24: the loops are the folds of their visits, which stay inside the grid. -/
theorem diffusionQuantizersComplete : Obligations.DiffusionQuantizersComplete := fun s =>
  ⟨⟨fsStage Params.adopted s, rfl, rfl, fsGrid_eq_fsVisits _ _ _ _ _, fun _ ha => fsGrid_outside _ _ _ _ _ ha⟩,
    ⟨atkStage Params.adopted s, rfl, rfl, atkGrid_eq_atkVisits _ _ _ _ _, fun _ ha => atkGrid_outside _ _ _ _ _ ha⟩⟩

section
variable (p : Params) (free : Nat → LumNum) {w h x y : Nat} (m : Mem LumNum) (hx : x < w) (hy : y < h)
include hx hy

/-- Q.FS leaves every pixel of the grid black or white (R120). -/
theorem fsGrid_read_eq_zero_or_255 : memRead free (fsGrid p free w h m) (pixelAddr w x y) = 0 ∨
    memRead free (fsGrid p free w h m) (pixelAddr w x y) = 255 := by
  rw [fsGrid_eq_fsVisits, fsVisits_eq_visits]
  refine visits_read_visited p free m (pairwise_scannedBefore_serpentine w h) serpentine_inGrid
    (fun v hv err => fsShares_ahead p ?_ err) (_, x, y) (mem_serpentine.2 ⟨hx, hy, rfl⟩)
  rw [(mem_serpentine.1 hv).2.2]
  exact ite_eq_or_eq _ _ _

/-- Q.ATK leaves every pixel of the grid black or white (R120). -/
theorem atkGrid_read_eq_zero_or_255 : memRead free (atkGrid p free w h m) (pixelAddr w x y) = 0 ∨
    memRead free (atkGrid p free w h m) (pixelAddr w x y) = 255 := by
  rw [atkGrid_eq_atkVisits, atkVisits_eq_visits p free (shares := fun _ => atkShares p) rfl]
  refine visits_read_visited p free m (pairwise_scannedBefore_directedRaster w h) directedRaster_inGrid
    (fun v hv => ?_) (1, x, y) (List.mem_map_of_mem (mem_raster.2 ⟨hx, hy⟩))
  obtain ⟨u, -, rfl⟩ := List.mem_map.1 hv
  exact atkShares_ahead p

end

/-- Settles O26: the order-independent modes by their point functions, the other two by the invariant along their scans. -/
theorem quantizersLeaveBlackAndWhite : Obligations.QuantizersLeaveBlackAndWhite := by
  intro p s t x y hx hy ht
  simp only [List.mem_cons, List.not_mem_nil, or_false] at ht
  rcases ht with rfl | rfl | rfl | rfl | rfl
  · rw [threshStage_readLum s hx hy]
    exact thresholdPoint_eq_zero_or_255 _ _
  · exact fsGrid_read_eq_zero_or_255 p s.lumFree s.lum hx hy
  · exact atkGrid_read_eq_zero_or_255 p s.lumFree s.lum hx hy
  · rw [ord4Stage_readLum p s hx hy]
    exact orderedPoint_eq_zero_or_255 _ _ _ _ _
  · rw [ord8Stage_readLum p s hx hy]
    exact orderedPoint_eq_zero_or_255 _ _ _ _ _

end Sys2Proof.Machine
end

section
/-! SUPPORT. PACK bit by bit. -/

namespace Sys2Proof.Machine

open Sys2Proof

/-! ### The bits of a packed byte -/

/-- A number built by shifting `n` bits in from the right holds the bit shifted in at turn `i` at place `n - 1 - i` (R46, R130). -/
theorem testBit_forUp_shiftIn (b : Nat → Bool) {n i j : Nat} (hij : i + j + 1 = n) :
    (forUp n (fun k v => v * 2 + (b k).toNat) 0).testBit j = b i := by
  have hbit (k v : Nat) : v * 2 + (b k).toNat = Nat.bit (b k) v := by rw [Nat.bit_val, Nat.mul_comm]
  induction n generalizing j with
  | zero => omega
  | succ n ih =>
    rw [forUp, hbit]
    cases j with
    | zero =>
      obtain rfl : i = n := by omega
      exact Nat.testBit_bit_zero _ _
    | succ j => exact (Nat.testBit_bit_succ _ _ _).trans (ih (by omega))

theorem packBit_eq_toNat (lum : Nat → LumNum) (w x y : Nat) :
    packBit lum w x y = (decide (x < w ∧ lum (pixelAddr w x y) = 0)).toNat := by
  rw [packBit, Bool.toNat, Bool.cond_decide]

/-- Pixel `x` is bit `7 - x mod 8` of its byte of the row: 1 iff it is inside the row and black (R130, R132, R134). -/
theorem packByte_getLsbD (lum : Nat → LumNum) (w x y : Nat) :
    (packByte lum w y (x / 8)).getLsbD (7 - x % 8) = decide (x < w ∧ lum (pixelAddr w x y) = 0) := by
  have hplace : x % 8 + (7 - x % 8) + 1 = 8 := by omega
  have hbits := testBit_forUp_shiftIn
    (fun k => decide (x / 8 * 8 + k < w ∧ lum (pixelAddr w (x / 8 * 8 + k) y) = 0)) hplace
  rw [Nat.div_add_mod'] at hbits
  have hlt : 7 - x % 8 < 8 := by omega
  simp only [packByte, packBit_eq_toNat, BitVec.getLsbD_ofNat, hbits, hlt, decide_true, Bool.true_and]

/-- Every pixel of a row has its bit in one of the row's bytes (R131). -/
theorem lt_eight_mul_rowBytesOf {w x : Nat} (hx : x < w) : x < 8 * rowBytesOf w := by
  unfold rowBytesOf
  omega

/-! ### The bitmap after PACK -/

/-- What PACK leaves at the bit of each column of the bitmap, the padding columns included (R130, R132). -/
theorem packStage_readPk_getLsbD (s : State) {x y : Nat} (hx : x < 8 * s.rowBytes) (hy : y < s.height) :
    ((packStage s).readPk (packAddr s.width y (x / 8))).getLsbD (7 - x % 8) =
      decide (x < s.width ∧ s.readLum (pixelAddr s.width x y) = 0) := by
  have hbyte : (packStage s).readPk (packAddr s.width y (x / 8)) = packByte s.readLum s.width y (x / 8) :=
    packGrid_read _ _ _ _ _ (Nat.div_lt_of_lt_mul hx) hy
  rw [hbyte, packByte_getLsbD]

/-- Unpacking reads the pixel's bit (R133). -/
theorem unpackPixel_eq_getLsbD (pk : Nat → Byte) (w x y : Nat) :
    unpackPixel pk w x y = if (pk (packAddr w y (x / 8))).getLsbD (7 - x % 8) then 0 else 255 := by
  simp only [unpackPixel, ← BitVec.testBit_toNat, Nat.testBit_eq_decide_div_mod_eq, decide_eq_true_eq]

/-- Settles O33: PACK's next state differs in PK and the position only, and its PK is read inside and beyond the bitmap. -/
theorem packSetsBits : Obligations.PackSetsBits := fun s =>
  ⟨packStage s, rfl, rfl, fun _ _ hx hy => packStage_readPk_getLsbD s hx hy, fun _ ha => packGrid_outside _ _ _ _ _ ha⟩

/-- Settles O34: the bit of a pixel tells black from white, and outside the row it is 0. -/
theorem packRoundTrips : Obligations.PackRoundTrips := by
  rintro s t ⟨⟩ hbinary
  refine ⟨fun x y hx hy => ?_, fun x y hout hx hy => ?_⟩
  · rw [unpackPixel_eq_getLsbD, packStage_readPk_getLsbD s (lt_eight_mul_rowBytesOf hx) hy]
    obtain hblack | hwhite := hbinary x y hx hy
    · simp [hblack, hx]
    · simp [hwhite]
  · exact (packStage_readPk_getLsbD s hx hy).trans (decide_eq_false fun hin => hout.not_gt hin.1)

end Sys2Proof.Machine
end

section
/-! SUPPORT. What a TX operation sends first, and how the bands divide the picture and its bitmap. -/

namespace Sys2Proof.Machine

open Sys2Proof

/-! ### The first slice of a buffer -/

/-- With nothing outstanding a TX operation hands over the first slice of a buffer that is not empty (R166). -/
theorem transmit_of_nonempty {s : State} {phase : Phase} {buf : List Byte} (hw : s.seq.wait = .none) (hl : 0 < buf.length) :
    s.transmit phase buf = { s with
      history := s.history ++ [.write s.seq.nwr (buf.take s.chunkSize)]
      seq := { s.seq with phase := phase, off := 0, wait := .write } } := by
  rw [State.transmit, if_pos hw, State.chunkPass, if_pos hl, issue_eq]
  rfl

/-- An empty buffer sends nothing: the loop of CHUNK ends at once (R160). -/
theorem transmit_nil {s : State} {phase : Phase} (hw : s.seq.wait = .none) :
    s.transmit phase [] = { s with seq := { s.seq with phase := phase, off := 0 } } := by
  rw [State.transmit, if_pos hw]
  rfl

/-- The low byte of a field is its bits 0 to 7 (R63). -/
theorem lo8_eq_setWidth (v : Half) : lo8 v.toNat = v.setWidth 8 := by
  apply BitVec.eq_of_toNat_eq
  rw [toNat_lo8, BitVec.toNat_setWidth]

/-- The high byte of a field is its bits 8 to 15 (R63). -/
theorem hi8_eq_setWidth (v : Half) : hi8 v.toNat = (v >>> 8).setWidth 8 := by
  apply BitVec.eq_of_toNat_eq
  rw [toNat_hi8, BitVec.toNat_setWidth, BitVec.toNat_ushiftRight, Nat.shiftRight_eq_div_pow]

/-- Settles O37: none of the three commands is empty, so each hands over its first slice. -/
theorem transmitCommandsSendFirstSlice : Obligations.TransmitCommandsSendFirstSlice := by
  refine fun s hw => ⟨congrArg _ (transmit_of_nonempty hw (by decide)), congrArg _ (transmit_of_nonempty hw (by decide)),
    fun rowBytes rows => ?_⟩
  have hsent : exec (.txHdr rowBytes rows) s = .next (s.transmit .hdr (headerBytes rowBytes.toNat rows.toNat)) := rfl
  have hpos : 0 < (headerBytes rowBytes.toNat rows.toNat).length := Nat.zero_lt_succ _
  rw [hsent, transmit_of_nonempty hw hpos, headerBytes, lo8_eq_setWidth, hi8_eq_setWidth, lo8_eq_setWidth, hi8_eq_setWidth]

/-- Settles O38: a band's body has `rowBytes * rows` bytes, so it sends a slice exactly when that is above 0. -/
theorem transmitBodySendsFirstSlice : Obligations.TransmitBodySendsFirstSlice := by
  intro s y rows hw
  have hlen := bandBytes_length s y rows
  refine ⟨fun hpos => congrArg _ (transmit_of_nonempty hw (hlen ▸ hpos)), fun hzero => ?_⟩
  have hnil : s.bandBytes y rows = [] := List.eq_nil_of_length_eq_zero (hlen.trans hzero)
  have hsent : exec (.txBody y rows) s = .next (s.transmit .body (s.bandBytes y rows)) := rfl
  rw [hsent, hnil, transmit_nil hw]

/-! ### The bands by number -/

theorem length_bandsOf (b h : Nat) : (bandsOf b h).length = if 0 < b then ceilDiv h b else 1 := by
  unfold bandsOf
  split <;> simp

/-- `ceil(h / b)` bands of `b` rows hold `h` rows (R141). -/
theorem le_ceilDiv_mul {b : Nat} (hb : 0 < b) (h : Nat) : h ≤ ceilDiv h b * b :=
  not_lt.1 fun hlt => lt_irrefl _ ((lt_ceilDiv_iff hb).2 hlt)

/-- With banding on band `i` starts at row `i * b`, as long as that is a row of the picture (R141). -/
theorem getElem?_bandsOf_eq_some {b : Nat} (hb : 0 < b) {h i : Nat} {band : Nat × Nat} :
    (bandsOf b h)[i]? = some band ↔ i * b < h ∧ band = (i * b, min b (h - i * b)) := by
  simp only [bandsOf, hb, if_true, List.getElem?_eq_some_iff, List.length_map, List.length_range, List.getElem_map,
    List.getElem_range, lt_ceilDiv_iff hb, exists_prop, eq_comm (b := band)]

/-- Each band but the last has `b` rows, and the next band starts where it ends (R141). -/
theorem bandsOf_adjacent {b h i : Nat} {band next : Nat × Nat} (hband : (bandsOf b h)[i]? = some band)
    (hnext : (bandsOf b h)[i + 1]? = some next) : next.1 = band.1 + band.2 ∧ band.2 = b := by
  rcases Nat.eq_zero_or_pos b with rfl | hb
  · simp at hnext
  · obtain ⟨-, rfl⟩ := (getElem?_bandsOf_eq_some hb).1 hband
    obtain ⟨hlt, rfl⟩ := (getElem?_bandsOf_eq_some hb).1 hnext
    rw [Nat.succ_mul] at hlt ⊢
    have hfull : min b (h - i * b) = b := by omega
    simp [hfull]

/-- The last band ends with the picture (R141). -/
theorem bandsOf_getLast_end {b h : Nat} {band : Nat × Nat} (hlast : (bandsOf b h).getLast? = some band) :
    band.1 + band.2 = h := by
  rcases Nat.eq_zero_or_pos b with rfl | hb
  · obtain rfl : (0, h) = band := by simpa using hlast
    simp
  · rw [List.getLast?_eq_getElem?, getElem?_bandsOf_eq_some hb, length_bandsOf, if_pos hb] at hlast
    obtain ⟨hlt, rfl⟩ := hlast
    have hcover : h ≤ (ceilDiv h b - 1 + 1) * b :=
      (le_ceilDiv_mul hb h).trans (Nat.mul_le_mul_right b le_tsub_add)
    rw [Nat.succ_mul] at hcover
    simp only
    omega

/-- With banding on no band has more than `b` rows (R141). -/
theorem bandsOf_rows_le {b h : Nat} (hb : 0 < b) {band : Nat × Nat} (hm : band ∈ bandsOf b h) : band.2 ≤ b := by
  obtain ⟨i, -, rfl⟩ := (mem_bandsOf hb).1 hm
  exact Nat.min_le_left _ _

/-- Settles O43: the clauses one by one, from the band of a given number. -/
theorem bandsPartitionPicture : Obligations.BandsPartitionPicture := fun b h hh =>
  ⟨congrArg List.head? (bandsOf_first b hh),
    fun _ _ _ => bandsOf_adjacent,
    fun _ => bandsOf_getLast_end,
    fun _ hm => ⟨(band_inside hh hm).1, fun hb => bandsOf_rows_le hb hm⟩,
    sum_rows_bandsOf b h,
    length_bandsOf b h⟩

/-! ### The bodies of the bands -/

/-- The bitmap's first `y` rows and the body of a band at row `y` are the bitmap's first `y + rows` rows (R56). -/
theorem bitmap_append_bandBytes (s : State) (y rows : Nat) :
    (List.range (s.rowBytes * y)).map s.readPk ++ s.bandBytes y rows = (List.range (s.rowBytes * (y + rows))).map s.readPk := by
  rw [State.bandBytes, Nat.mul_add, List.range_add, List.map_append, List.map_map, Nat.mul_comm y]
  rfl

/-- The bodies of the first `n` bands are the bitmap's rows down to the end of band `n - 1` (R148). -/
theorem bodies_of_first_bands (s : State) (b h n : Nat) :
    (List.range n).flatMap (fun i => s.bandBytes (i * b) (min b (h - i * b))) =
      (List.range (s.rowBytes * min (n * b) h)).map s.readPk := by
  induction n with
  | zero => simp
  | succ n ih =>
    rw [List.range_succ, List.flatMap_append, ih, List.flatMap_singleton]
    rcases Nat.le_total h (n * b) with hpast | hinside
    · have hrows : min b (h - n * b) = 0 := by omega
      have hend : min ((n + 1) * b) h = min (n * b) h := by rw [Nat.succ_mul]; omega
      rw [hrows, hend]
      simp [State.bandBytes]
    · have hend : min ((n + 1) * b) h = n * b + min b (h - n * b) := by rw [Nat.succ_mul]; omega
      rw [min_eq_left hinside, bitmap_append_bandBytes, hend]

/-- Settles O44: with banding on the bands hold every row, and with it off the one band is the whole picture. -/
theorem bandBodiesAreTheBitmap : Obligations.BandBodiesAreTheBitmap := by
  intro s _
  rw [State.bands]
  rcases Nat.eq_zero_or_pos s.bandRows with hplain | hb
  · simp [hplain, State.bandBytes]
  · rw [bandsOf, if_pos hb, List.flatMap_map, bodies_of_first_bands, min_eq_right (le_ceilDiv_mul hb _)]

end Sys2Proof.Machine
end

section
/-! SUPPORT. The transport one step at a time: what CHUNK, SLEEP, LINK, TIMER and *advance* each do, and where nothing moves. -/

namespace Sys2Proof.Machine

open Sys2Proof

/-! ### CHUNK and SLEEP -/

/-- With nothing outstanding and no byte left CHUNK's loop has ended (R160). -/
theorem chunk_of_sent {s : State} {buf : List Byte} (hw : s.seq.wait = .none) (hl : buf.length ≤ s.seq.off) :
    s.chunk buf = s := by
  rw [State.chunk, if_pos hw, State.chunkPass, if_neg (by omega)]

/-- Settles O39: CHUNK is an *issue* as long as bytes are left. -/
theorem chunkSendsNextSlice : Obligations.ChunkSendsNextSlice := fun s buf hw =>
  ⟨fun hl => congrArg _ ((chunk_eq_issue hw hl).trans (issue_eq buf s)), fun hl => congrArg _ (chunk_of_sent hw hl)⟩

/-- With nothing outstanding SLEEP is its pause (R163, R147). -/
theorem exec_sleep {s : State} (hw : s.seq.wait = .none) (p : Pause) : exec (.sleep p) s = .next (s.pause p) :=
  congrArg _ (if_pos hw)

/-- Settles O40: a pause is a sleep exactly where its delay, and for a band pause banding too, is on. -/
theorem sleepStartsPause : Obligations.SleepStartsPause := by
  refine fun s hw => ⟨fun hd => ?_, fun hd => ?_, fun hb hd => ?_, fun hoff => ?_⟩ <;>
    refine (exec_sleep hw _).trans (congrArg _ ?_)
  · exact if_pos hd
  · exact if_neg (by omega)
  · exact if_pos ⟨hb, hd⟩
  · refine if_neg fun ⟨hb, hd⟩ => ?_
    unfold State.bandRows at hb
    omega

/-- While something is pending a TX operation waits (R162). -/
theorem transmit_of_pending {s : State} (hw : s.seq.wait ≠ .none) (phase : Phase) (buf : List Byte) :
    s.transmit phase buf = s := if_neg hw

/-- Settles O41: each of the six operations tests first that nothing is pending. -/
theorem sendingWaitsWhilePending : Obligations.SendingWaitsWhilePending := by
  rintro s i hw (rfl | ⟨a, b, rfl⟩ | ⟨y, r, rfl⟩ | rfl | ⟨buf, rfl⟩ | ⟨p, rfl⟩) <;> refine congrArg Host.Outcome.next ?_
  · exact transmit_of_pending hw _ _
  · exact transmit_of_pending hw _ _
  · exact transmit_of_pending hw _ _
  · exact transmit_of_pending hw _ _
  · exact if_neg hw
  · exact if_neg hw

/-! ### LINK and TIMER -/

/-- *complete-ok* (R167). -/
theorem linkTurn_ok {s : State} (hw : s.seq.wait = .write) : (linkTurn .ok s).outcome = .next s.sliceSent.pauseChunk := by
  rw [linkTurn, if_pos hw]
  exact exec_sleep (s := s.sliceSent) rfl .chunk

/-- *complete-fail* (R168). -/
theorem linkTurn_fail {s : State} (hw : s.seq.wait = .write) : (linkTurn .fail s).outcome = .next (s.raise .transport) := by
  rw [linkTurn, if_pos hw]
  rfl

/-- *wake* (R169). -/
theorem timerTurn_wake {s : State} (hw : s.seq.wait = .csleep ∨ s.seq.wait = .bsleep) :
    (timerTurn s).outcome = .next s.wake := by
  rw [timerTurn, if_pos hw]
  rfl

/-- TIMER's turn. -/
theorem step_timer (s : State) (rest : List Turn) :
    step { s with turns := .timer :: rest } = (timerTurn { s with turns := rest }).outcome := rfl

/-- Settles O47: the answer counts the slice and starts the pause; the wake is TIMER's only move. -/
theorem okAndWakeMoveOn : Obligations.OkAndWakeMoveOn := by
  refine ⟨fun s rest hw => ?_, fun s rest hw => timerTurn_wake (s := { s with turns := rest }) hw⟩
  have hok := linkTurn_ok (s := { s with turns := rest }) hw
  refine ⟨fun hd => ?_, fun hd => ?_⟩ <;> rw [step_link, hok]
  · exact congrArg _ (if_neg (Nat.not_lt.2 hd.le))
  · exact congrArg _ (if_pos hd)

/-- Settles O48: the failure is the one entry of TransportError, and the record it leaves in the history carries no byte. -/
theorem failEndsTheJob : Obligations.FailEndsTheJob := by
  intro s rest hw
  refine ⟨_, (step_link s rest .fail).trans (linkTurn_fail (s := { s with turns := rest }) hw), rfl, ?_, ?_⟩
  · simp [State.emitted, Event.action]
  · simp [State.wire, Event.bytes]

/-! ### *advance* -/

/-- With nothing outstanding and the buffer wholly sent SEQ's turn is *advance* (R171). -/
theorem seqTurn_sent {s : State} (hs : s.seq.phase.sends = true) (hw : s.seq.wait = .none) (hl : s.seq.off = s.cur.length) :
    seqTurn s = advance s := by
  rw [seqTurn_sends hs hw, sendStep, if_neg (by omega), if_pos hl]

/-- So it is in GAP when no pause is pending (R171). -/
theorem seqTurn_gap {s : State} (hp : s.seq.phase = .gap) (hw : s.seq.wait = .none) : seqTurn s = advance s := by
  simp only [seqTurn, hp, hw, if_true]

section
variable {s : State}

theorem advance_reset (hp : s.seq.phase = .reset) : (advance s).outcome = .next s.toFirstBand := by
  simp only [advance, hp, Fetched.outcome]

theorem advance_hdr (hp : s.seq.phase = .hdr) : (advance s).outcome = .next s.toBody := by
  simp only [advance, hp, Fetched.outcome]

theorem advance_body_plain (hp : s.seq.phase = .body) (hb : s.bandRows = 0) : (advance s).outcome = .next s.toFeed := by
  simp only [advance, hp, hb, Nat.lt_irrefl, if_false, Fetched.outcome]

theorem advance_body_banded (hp : s.seq.phase = .body) (hw : s.seq.wait = .none) (hb : 0 < s.bandRows) :
    (advance s).outcome = .next s.toGap.pauseBand := by
  simp only [advance, hp, hb, if_true, Fetched.outcome]
  exact exec_sleep (s := s.toGap) hw .band

theorem advance_gap_next (hp : s.seq.phase = .gap) (hy : s.seq.y + s.bandRows < s.height) :
    (advance s).outcome = .next s.toNextBand := by
  simp only [advance, hp, hy, if_true, Fetched.outcome]

theorem advance_gap_last (hp : s.seq.phase = .gap) (hy : ¬ s.seq.y + s.bandRows < s.height) :
    (advance s).outcome = .next s.toFeed := by
  simp only [advance, hp, hy, if_false, Fetched.outcome]

theorem advance_feed (hp : s.seq.phase = .feed) : (advance s).outcome = .next s.finish := by
  simp only [advance, hp, Fetched.outcome]

end

/-- Settles O51: SEQ's turn is *advance* there, and each row of the table is its own equation. -/
theorem advanceFollowsTable : Obligations.AdvanceFollowsTable := by
  intro s rest hw
  have sent {p : Phase} (hp : s.seq.phase = p) (hs : p.sends = true) (hl : s.seq.off = p.bufferLen s.rowBytes s.seq.rows) :
      step { s with turns := .seq :: rest } = (advance { s with turns := rest }).outcome := by
    subst hp
    rw [step_seq, seqTurn_sent (s := { s with turns := rest }) hs hw (hl.trans (cur_length { s with turns := rest }).symm)]
  have gap (hp : s.seq.phase = .gap) :
      step { s with turns := .seq :: rest } = (advance { s with turns := rest }).outcome := by
    rw [step_seq, seqTurn_gap (s := { s with turns := rest }) hp hw]
  refine ⟨fun hp hl => ?_, fun hp hl => ?_, fun hp hl hb => ?_, fun hp hl hb hd => ?_, fun hp hl hb hd => ?_, fun hp hy => ?_,
    fun hp hy => ?_, fun hp hl => ?_⟩
  · exact (sent hp rfl hl).trans (advance_reset hp)
  · exact (sent hp rfl hl).trans (advance_hdr hp)
  · exact (sent hp rfl hl).trans (advance_body_plain hp hb)
  · exact ((sent hp rfl hl).trans (advance_body_banded hp hw hb)).trans (congrArg _ (if_pos ⟨hb, hd⟩))
  · refine ((sent hp rfl hl).trans (advance_body_banded hp hw hb)).trans (congrArg _ (if_neg ?_))
    exact fun hpause => absurd hpause.2 (Nat.not_lt.2 hd.le)
  · exact (gap hp).trans (advance_gap_next hp hy)
  · exact (gap hp).trans (advance_gap_last hp (Nat.not_lt.2 hy))
  · exact (sent hp rfl hl).trans (advance_feed hp)

/-! ### Where nothing moves -/

/-- Where SEQ is idle only a START or a reset moves the block (R217). -/
theorem moves_of_idle {tn : Turn} {u t : State} (hp : u.seq.phase = .idle) (hw : u.seq.wait = .none) (hreset : tn ≠ .reset)
    (hstart : tn ≠ .host (.writeCtrl 1#1)) (hm : Moves tn u t) :
    t.seq = u.seq ∧ t.history = u.history ∧ t.status = u.status ∧ t.errinfo = u.errinfo ∧ t.job = u.job ∧ t.lum = u.lum ∧
      t.pk = u.pk := by
  cases hm with
  | stay => exact ⟨rfl, rfl, rfl, rfl, rfl, rfl, rfl⟩
  | luma _ hp' | tone _ hp' | thresh _ hp' | fs _ hp' | atk _ hp' | ord4 _ hp' | ord8 _ hp' | reserved _ hp' | pack _ hp'
  | issueReset _ hp' | issueHdr _ hp' | issueBody _ hp' | issueFeed _ hp' | advReset _ hp' | advHdr _ hp'
  | advBodyPlain _ hp' | advBodyBanded _ hp' | advGapNext _ hp' | advGapLast _ hp' | advFeed _ hp' =>
    exact absurd hp (by simp [hp'])
  | issueMore _ _ _ hl => exact absurd (sends_of_off_lt hl) (by simp [hp, Phase.sends])
  | completeOk _ hw' => simp [hw] at hw'
  | completeFail _ hw' => simp [hw] at hw'
  | wake _ hw' => simp [hw] at hw'
  | start => exact absurd rfl hstart
  | access a _ _ ha hacc =>
    rw [(hostAccess_next hacc).1]
    exact ⟨rfl, rfl, rfl, rfl, rfl, rfl, rfl⟩
  | reset => exact absurd rfl hreset

/-- Settles O49, by cases on the moves. -/
theorem idleBlockStaysIdle : Obligations.IdleBlockStaysIdle :=
  fun s _ hp hw hstep hreset hstart => moves_of_idle (u := s.popTurn) hp hw hreset hstart (step_moves hstep)

/-- While something is pending only LINK's answer, TIMER's wake or a reset moves SEQ (R175). -/
theorem moves_of_pending {tn : Turn} {u t : State} (hrender : u.seq.phase ≠ .render) (hbusy : u.status.busy = true)
    (hw : u.seq.wait ≠ .none) (hreset : tn ≠ .reset) (hlink : u.seq.wait = .write → ∀ a, tn ≠ .link a)
    (htimer : u.seq.wait = .csleep ∨ u.seq.wait = .bsleep → tn ≠ .timer) (hm : Moves tn u t) :
    t.seq = u.seq ∧ t.history = u.history ∧ t.status.busy = true := by
  cases hm with
  | stay => exact ⟨rfl, rfl, hbusy⟩
  | luma _ hp | tone _ hp | thresh _ hp | fs _ hp | atk _ hp | ord4 _ hp | ord8 _ hp | reserved _ hp | pack _ hp =>
    exact absurd hp hrender
  | issueReset _ _ hw' | issueHdr _ _ hw' | issueBody _ _ hw' | issueFeed _ _ hw' | issueMore _ hw' | advReset _ _ hw'
  | advHdr _ _ hw' | advBodyPlain _ _ hw' | advBodyBanded _ _ hw' | advGapNext _ _ hw' | advGapLast _ _ hw'
  | advFeed _ _ hw' => exact absurd hw' hw
  | completeOk _ hw' => exact absurd rfl (hlink hw' _)
  | completeFail _ hw' => exact absurd rfl (hlink hw' _)
  | wake _ hw' => exact absurd rfl (htimer hw')
  | start =>
    rw [startJob_of_busy hbusy]
    exact ⟨rfl, rfl, hbusy⟩
  | access a _ _ ha hacc =>
    rw [(hostAccess_next hacc).1]
    exact ⟨rfl, rfl, hbusy⟩
  | reset => exact absurd rfl hreset

/-- Settles O50: of the two agents that could move SEQ one does not move, and the other's signal is ignored. -/
theorem unansweredWaitHangs : Obligations.UnansweredWaitHangs := by
  intro s t hs hstep hreset hbusy
  have hmoves := step_moves hstep
  have hrender := ne_render_of_transmits hs
  refine ⟨fun hw hlink => ?_, fun hw htimer => ?_⟩
  · exact moves_of_pending (u := s.popTurn) hrender hbusy (hw.trans_ne nofun) hreset (fun _ => hlink)
      (fun hw' => by rcases hw' with hw' | hw' <;> exact absurd (hw.symm.trans hw') nofun) hmoves
  · exact moves_of_pending (u := s.popTurn) hrender hbusy (by rcases hw with hw | hw <;> exact hw.trans_ne nofun) hreset
      (fun hw' => by rcases hw with hw | hw <;> exact absurd (hw.symm.trans hw') nofun) (fun _ => htimer) hmoves

end Sys2Proof.Machine
end

section
/-! SUPPORT. The slices of a buffer put together again, and what the schedule's writes carry. -/

namespace Sys2Proof.Machine

open Sys2Proof

/-! ### The slices of a buffer -/

@[simp] theorem length_slicesOf (cs : Nat) (buf : List Byte) : (slicesOf cs buf).length = ceilDiv buf.length cs := by
  simp [slicesOf]

/-- The slices put together are the buffer (R161). -/
theorem flatten_slicesOf {cs : Nat} (hcs : 0 < cs) (buf : List Byte) : (slicesOf cs buf).flatten = buf := by
  by_cases hb : buf = []
  · simp [hb]
  · have hshorter : (buf.drop cs).length < buf.length := by
      have := List.length_pos_iff.2 hb
      rw [List.length_drop]
      omega
    rw [slicesOf_cons hcs hb, List.flatten_cons, flatten_slicesOf hcs (buf.drop cs), List.take_append_drop]
termination_by buf.length

/-- Slice `k` is the at most `cs` bytes from byte `k * cs`, which lies inside the buffer (R161). -/
theorem getElem?_slicesOf {cs : Nat} (hcs : 0 < cs) {buf : List Byte} {k : Nat} {sl : List Byte}
    (hk : (slicesOf cs buf)[k]? = some sl) : k * cs < buf.length ∧ sl = (buf.drop (k * cs)).take cs := by
  obtain ⟨hlt, rfl⟩ := List.getElem?_eq_some_iff.1 hk
  rw [length_slicesOf, lt_ceilDiv_iff hcs] at hlt
  refine ⟨hlt, ?_⟩
  simp only [slicesOf, List.getElem_map, List.getElem_range, byteRange, Nat.succ_mul]
  rcases Nat.le_total (k * cs + cs) buf.length with hle | hle
  · rw [Nat.min_eq_left hle, Nat.add_sub_cancel_left]
  · rw [Nat.min_eq_right hle, List.take_of_length_le (by simp), List.take_of_length_le (by rw [List.length_drop]; omega)]

/-- Settles O42: the clauses one by one, from the slice of a given number. -/
theorem slicesPartitionBuffer : Obligations.SlicesPartitionBuffer := by
  intro cs buf hcs
  refine ⟨flatten_slicesOf hcs buf, length_slicesOf cs buf, fun k sl hk => ?_, fun hle hne => ?_⟩
  · obtain ⟨hlt, rfl⟩ := getElem?_slicesOf hcs hk
    refine ⟨rfl, List.ne_nil_of_length_pos ?_, List.length_take_le _ _, fun hnext => ?_⟩
    · rw [List.length_take, List.length_drop]
      omega
    · rw [length_slicesOf, lt_ceilDiv_iff hcs, Nat.succ_mul] at hnext
      rw [List.length_take, List.length_drop]
      omega
  · rw [slicesOf_cons hcs hne, List.take_of_length_le hle, List.drop_of_length_le hle, slicesOf_nil]

/-! ### The writes of a list of actions -/

@[simp] theorem writeCount_nil : writeCount [] = 0 := rfl

@[simp] theorem writeCount_write_cons (bs : List Byte) (l : List Action) : writeCount (.write bs :: l) = writeCount l + 1 :=
  List.countP_cons_of_pos rfl

@[simp] theorem writeCount_append (l l' : List Action) : writeCount (l ++ l') = writeCount l + writeCount l' :=
  List.countP_append

theorem writeCount_flatMap {α : Type} (f : α → List Action) (l : List α) :
    writeCount (l.flatMap f) = (l.map fun a => writeCount (f a)).sum := by
  induction l with
  | nil => rfl
  | cons a l ih => rw [List.flatMap_cons, writeCount_append, ih, List.map_cons, List.sum_cons]

/-- A pause is no write (R163). -/
@[simp] theorem writeCount_pauseActions (ms : Half) : writeCount (pauseActions ms) = 0 := by
  unfold pauseActions
  split <;> rfl

/-- A pause has no payload (R163). -/
@[simp] theorem bytes_pauseActions (ms : Half) : (pauseActions ms).flatMap Action.bytes = [] := by
  unfold pauseActions
  split <;> rfl

@[simp] theorem writeCount_bandPause (s : State) : writeCount s.bandPause = 0 := by
  unfold State.bandPause
  split <;> simp

@[simp] theorem bytes_bandPause (s : State) : s.bandPause.flatMap Action.bytes = [] := by
  unfold State.bandPause
  split <;> simp

/-- A buffer takes as many writes as it has slices (R170). -/
@[simp] theorem writeCount_chunked (s : State) (buf : List Byte) :
    writeCount (s.chunked buf) = ceilDiv buf.length s.chunkSize := by
  simp [State.chunked, chunkActions, writeCount_flatMap]

/-- The writes of a buffer carry the buffer (R161, R170). -/
theorem bytes_chunked {s : State} (hcs : 1 ≤ s.chunkSize) (buf : List Byte) :
    (s.chunked buf).flatMap Action.bytes = buf := by
  simp [State.chunked, chunkActions, List.flatMap_assoc, Action.bytes, flatten_slicesOf hcs]

/-- The writes of a frame carry its header and its body (R64, R170). -/
theorem bytes_frameActions {s : State} (hcs : 1 ≤ s.chunkSize) (band : Nat × Nat) :
    (s.frameActions band).flatMap Action.bytes = headerBytes s.rowBytes band.2 ++ s.bandBytes band.1 band.2 := by
  simp [State.frameActions, bytes_chunked hcs]

/-- A frame takes the writes of its header and of its body (R170). -/
theorem writeCount_frameActions (s : State) (band : Nat × Nat) :
    writeCount (s.frameActions band) = ceilDiv 8 s.chunkSize + ceilDiv (s.rowBytes * band.2) s.chunkSize := by
  simp [State.frameActions, headerBytes]

/-- The schedule's writes carry the stream (R170). -/
theorem bytes_schedule {s : State} (hcs : 1 ≤ s.chunkSize) : s.schedule.flatMap Action.bytes = s.stream := by
  simp only [State.schedule, State.stream, List.flatMap_append, List.flatMap_assoc, bytes_chunked hcs, bytes_frameActions hcs]

/-- Settles O46: buffer by buffer. -/
theorem scheduleCarriesTheStream : Obligations.ScheduleCarriesTheStream := by
  refine fun s hcs => ⟨bytes_schedule hcs, ?_⟩
  simp only [State.schedule, writeCount_append, writeCount_flatMap, writeCount_frameActions, writeCount_chunked]
  rfl

end Sys2Proof.Machine
end

section
/-! SUPPORT. The schedule along the step machine: what is left of a buffer after a slice, what of the schedule is left at each
position, and that a step of the transmit part moves actions from the one list to the other. -/

namespace Sys2Proof.Machine

open Sys2Proof

/-! ### Where nothing changes -/

/-- A host access other than START changes neither the actions emitted nor those to come. -/
theorem emitted_append_remaining_of_access {maxPix : Nat} {a : HostAction} {s t : State}
    (h : hostAccess maxPix a s = .next t) : t.emitted ++ t.remaining = s.emitted ++ s.remaining := by
  rw [(hostAccess_next h).1]
  rfl

/-! ### Buffers -/

/-- The buffer of a TX operation at the start of its phase is the current one, so its *issue* is of that (R166). -/
theorem transmit_eq_issue_cur {s : State} {phase : Phase} {buf : List Byte} (hw : s.seq.wait = .none) (hp : s.seq.phase = phase)
    (h0 : s.seq.off = 0) (hcur : buf = s.cur) (hl : 0 < buf.length) : s.transmit phase buf = s.issue s.cur := by
  rw [transmit_eq_issue hw hp h0 hl, hcur]

/-- A legal position's row length and rows fit a header's fields (R63). -/
theorem headerBytes_of_inv {s : State} (h : Inv s) :
    headerBytes (BitVec.ofNat 16 s.rowBytes).toNat (BitVec.ofNat 16 s.seq.rows).toNat = headerBytes s.rowBytes s.seq.rows := by
  have hrb := rowBytes_le s
  have hrows := h.ranges.rows
  rw [BitVec.toNat_ofNat, BitVec.toNat_ofNat, Nat.mod_eq_of_lt (by omega), Nat.mod_eq_of_lt (by omega)]

/-- What is left of the current buffer before an *issue* is the slice it hands over, then what is left after it (R160). -/
theorem restOfBuffer_issue {s : State} (hcs : 1 ≤ s.chunkSize) (hw : s.seq.wait = .none) (hl : s.seq.off < s.cur.length) :
    s.restOfBuffer = .write ((s.cur.drop s.seq.off).take s.chunkSize) :: (s.issue s.cur).restOfBuffer := by
  have hne : s.cur.drop s.seq.off ≠ [] := List.ne_nil_of_length_pos (by rw [List.length_drop]; omega)
  have hcut : s.cur.drop (s.seq.off + s.chunkSize) = s.cur.drop (s.seq.off + s.sliceLen s.cur.length) := by
    rw [State.sliceLen]
    rcases Nat.le_total s.chunkSize (s.cur.length - s.seq.off) with h | h
    · rw [Nat.min_eq_left h]
    · rw [Nat.min_eq_right h, List.drop_of_length_le (by omega), List.drop_of_length_le (by omega)]
  have hafter : (s.issue s.cur).restOfBuffer =
      pauseActions s.job.chunkDelay ++ s.chunked (s.cur.drop (s.seq.off + s.sliceLen s.cur.length)) := by
    rw [issue_eq]
    rfl
  rw [hafter, State.restOfBuffer, if_neg (by simp [hw]), State.chunked, chunkActions_cons hcs hne, List.drop_drop, hcut]
  rfl

/-- With nothing outstanding and the buffer wholly sent nothing of it is left. -/
theorem restOfBuffer_of_sent {s : State} (hw : s.seq.wait = .none) (hl : s.seq.off = s.cur.length) : s.restOfBuffer = [] := by
  rw [State.restOfBuffer, if_neg (by simp [hw]), hl, List.drop_length, State.chunked, chunkActions_nil]

/-! ### Positions -/

/-- The schedule's actions after the current buffer, by phase (R170). -/
def State.afterBuffer (s : State) : List Action :=
  match s.seq.phase with
  | .reset => s.bands.flatMap s.frameActions ++ s.chunked feedBytes
  | .hdr =>
    s.chunked (s.bandBytes s.seq.y s.seq.rows) ++ s.bandPause ++ (s.bandsBelow s.seq.y).flatMap s.frameActions
      ++ s.chunked feedBytes
  | .body => s.bandPause ++ (s.bandsBelow s.seq.y).flatMap s.frameActions ++ s.chunked feedBytes
  | .feed => []
  | .idle => []
  | .render => []
  | .gap => []

/-- In a sending phase what is to come is the rest of the buffer and what follows the buffer. -/
theorem remaining_of_sends {s : State} (hs : s.seq.phase.sends = true) : s.remaining = s.restOfBuffer ++ s.afterBuffer := by
  unfold State.remaining State.afterBuffer
  cases hp : s.seq.phase <;> simp [hp, Phase.sends] at hs ⊢

/-- At the end of its buffer a sending phase leaves what follows the buffer. -/
theorem remaining_of_sent {s : State} (hs : s.seq.phase.sends = true) (hw : s.seq.wait = .none)
    (hl : s.seq.off = s.cur.length) : s.remaining = s.afterBuffer := by
  rw [remaining_of_sends hs, restOfBuffer_of_sent hw hl, List.nil_append]

/-- At its start a header's phase leaves the whole frame of its band, the bands below it and the Feed command. -/
theorem remaining_of_frameStart {s : State} (hp : s.seq.phase = .hdr) (hw : s.seq.wait = .none) (h0 : s.seq.off = 0) :
    s.remaining = s.frameActions (s.seq.y, s.seq.rows) ++ (s.bandsBelow s.seq.y).flatMap s.frameActions
      ++ s.chunked feedBytes := by
  simp [State.remaining, State.restOfBuffer, State.cur, State.frameActions, hp, hw, h0]

/-- At its start the phase of the Feed command leaves that command. -/
theorem remaining_of_feedStart {s : State} (hp : s.seq.phase = .feed) (hw : s.seq.wait = .none) (h0 : s.seq.off = 0) :
    s.remaining = s.chunked feedBytes := by
  simp [State.remaining, State.restOfBuffer, State.cur, hp, hw, h0]

/-- In GAP, as far as a band is the last one no band is below it; else the next one is, and those below that (R141). -/
theorem bandsBelow_of_gap {s : State} (h : Inv s) (hp : s.seq.phase = .gap) :
    s.bandsBelow s.seq.y =
      if s.seq.y + s.bandRows < s.height then
        (s.seq.y + s.bandRows, min s.bandRows (s.height - (s.seq.y + s.bandRows))) :: s.bandsBelow (s.seq.y + s.bandRows)
      else [] := by
  have hb := h.position.gapIsBanded hp
  obtain ⟨i, -, hi⟩ := (mem_bandsOf hb).1 (h.position.bandLegal (.inr (.inr hp)))
  have hy : s.seq.y = i * s.bandRows := congrArg Prod.fst hi
  have hnext : s.seq.y + s.bandRows = (i + 1) * s.bandRows := by rw [hy]; ring
  rw [hnext, hy]
  split
  next hlt => exact bandsOf_next hb hlt
  next hge => exact bandsOf_last hb (not_lt.1 hge)

/-- Whether SEQ waits for a pause or for nothing makes no difference to what is to come. -/
theorem remaining_setWait {s : State} {w : Wait} {tm : Option Half} {l : List Event} (hs : s.seq.wait ≠ .write)
    (hw : w ≠ .write) :
    ({ s with seq := { s.seq with wait := w }, timer := tm, history := l } : State).remaining = s.remaining := by
  have hrest : ({ s with seq := { s.seq with wait := w }, timer := tm, history := l } : State).restOfBuffer =
      s.restOfBuffer := by
    rw [State.restOfBuffer, if_neg hw, State.restOfBuffer, if_neg hs]
    rfl
  unfold State.remaining
  rw [hrest]
  rfl

/-! ### Pauses -/

theorem emitted_pauseChunk (s : State) : s.pauseChunk.emitted = s.emitted ++ pauseActions s.job.chunkDelay := by
  unfold State.pauseChunk pauseActions
  split <;> simp [State.emitted, Event.action]

theorem remaining_pauseChunk {s : State} (hw : s.seq.wait ≠ .write) : s.pauseChunk.remaining = s.remaining := by
  rcases pauseChunk_cases s with he | ⟨-, he⟩ <;> rw [he]
  exact remaining_setWait hw nofun

theorem emitted_pauseBand (s : State) : s.pauseBand.emitted = s.emitted ++ s.bandPause := by
  unfold State.pauseBand State.bandPause pauseActions
  by_cases hb : 0 < s.bandRows <;> by_cases hd : 0 < s.job.bandDelay.toNat <;> simp [hb, hd, State.emitted, Event.action]

theorem remaining_pauseBand {s : State} (hw : s.seq.wait ≠ .write) : s.pauseBand.remaining = s.remaining := by
  rcases pauseBand_cases s with he | ⟨-, he⟩ <;> rw [he]
  exact remaining_setWait hw nofun

/-! ### The moves -/

/-- A wake (R169). -/
theorem emitted_append_remaining_wake {s : State} (hw : s.seq.wait ≠ .write) :
    s.wake.emitted ++ s.wake.remaining = s.emitted ++ s.remaining :=
  congrArg (s.emitted ++ ·) (remaining_setWait hw nofun)

section
variable {s : State} (hw : s.seq.wait = .none) (hl : s.seq.off = s.cur.length)
include hw hl

/-- Out of HDR: the body follows (R171). -/
theorem remaining_toBody (hp : s.seq.phase = .hdr) : s.toBody.remaining = s.remaining := by
  have hrest : s.toBody.restOfBuffer = s.chunked (s.bandBytes s.seq.y s.seq.rows) := if_neg (by simp [hw])
  rw [remaining_of_sent (by simp [hp, Phase.sends]) hw hl, remaining_of_sends rfl, hrest, State.afterBuffer,
    State.afterBuffer, hp]
  simp only [toBody_seq, List.append_assoc]
  rfl

/-- Out of BODY with banding off: there is no pause and no further band (R141, R147). -/
theorem remaining_toFeed_of_body (hp : s.seq.phase = .body) (hb : s.bandRows = 0) :
    s.toFeed.remaining = s.remaining := by
  have hpause : s.bandPause = [] := if_neg (by omega)
  have hbelow : s.bandsBelow s.seq.y = [] := by simp [State.bandsBelow, State.bands, hb]
  rw [remaining_of_sent (by simp [hp, Phase.sends]) hw hl, remaining_of_feedStart (s := s.toFeed) rfl hw rfl,
    State.afterBuffer, hp]
  simp only [hpause, hbelow]
  rfl

/-- Out of BODY with banding on: the band pause is the next action, or there is none (R147, R171). -/
theorem emitted_append_remaining_toGap (hp : s.seq.phase = .body) :
    s.toGap.pauseBand.emitted ++ s.toGap.pauseBand.remaining = s.emitted ++ s.remaining := by
  have hgap : s.bandPause ++ s.toGap.remaining = s.afterBuffer := by
    rw [State.afterBuffer, hp]
    exact (List.append_assoc _ _ _).symm
  rw [emitted_pauseBand, remaining_pauseBand (by simp [hw]), remaining_of_sent (by simp [hp, Phase.sends]) hw hl, ← hgap,
    List.append_assoc]
  rfl

/-- Out of FEED nothing is left (R187). -/
theorem remaining_finish (hp : s.seq.phase = .feed) : s.finish.remaining = s.remaining := by
  rw [remaining_of_sent (by simp [hp, Phase.sends]) hw hl, State.afterBuffer, hp]
  rfl

end

section
variable {s : State} (h : Inv s)
include h

/-- *issue* (R166). -/
theorem emitted_append_remaining_issue (hw : s.seq.wait = .none) (hl : s.seq.off < s.cur.length) :
    (s.issue s.cur).emitted ++ (s.issue s.cur).remaining = s.emitted ++ s.remaining := by
  have hs := sends_of_off_lt hl
  have hcs := h.job.chunkSize (busy_of_ne_idle h (ne_idle_of_transmits (.inl hs)))
  have hphase : (s.issue s.cur).seq.phase.sends = true := by rw [issue_eq]; exact hs
  have hafter : (s.issue s.cur).afterBuffer = s.afterBuffer := by rw [issue_eq]; rfl
  have hemitted : (s.issue s.cur).emitted = s.emitted ++ [.write ((s.cur.drop s.seq.off).take s.chunkSize)] := by
    rw [issue_eq]
    simp [State.emitted, Event.action]
  rw [remaining_of_sends hphase, remaining_of_sends hs, restOfBuffer_issue hcs hw hl, hemitted, hafter]
  simp

/-- *complete-ok* and its chunk pause (R167). -/
theorem emitted_append_remaining_sliceSent (hw : s.seq.wait = .write) :
    s.sliceSent.pauseChunk.emitted ++ s.sliceSent.pauseChunk.remaining = s.emitted ++ s.remaining := by
  have hs := h.wait.onlyWhileSending (.inl hw)
  have hafter : s.sliceSent.afterBuffer = s.afterBuffer := rfl
  have hbefore : s.restOfBuffer = pauseActions s.job.chunkDelay ++ s.sliceSent.restOfBuffer := if_pos hw
  rw [emitted_pauseChunk, remaining_pauseChunk (by simp), remaining_of_sends (s := s.sliceSent) hs, remaining_of_sends hs,
    hbefore, hafter, List.append_assoc, List.append_assoc]
  rfl

/-- Out of RESET: the first band is the first of the schedule's (R171). -/
theorem remaining_toFirstBand (hp : s.seq.phase = .reset) (hw : s.seq.wait = .none) (hl : s.seq.off = s.cur.length) :
    s.toFirstBand.remaining = s.remaining := by
  have hbands : s.bands = (0, s.rowsAt 0) :: s.bandsBelow 0 :=
    bandsOf_first s.bandRows (h.job.height (busy_of_ne_idle h (by simp [hp])))
  rw [remaining_of_frameStart (s := s.toFirstBand) rfl hw rfl, remaining_of_sent (by simp [hp, Phase.sends]) hw hl,
    State.afterBuffer, hp]
  simp only [hbands]
  rfl

/-- Out of GAP with rows left: the next band follows (R171). -/
theorem remaining_toNextBand (hp : s.seq.phase = .gap) (hw : s.seq.wait = .none) (hy : s.seq.y + s.bandRows < s.height) :
    s.toNextBand.remaining = s.remaining := by
  rw [remaining_of_frameStart (s := s.toNextBand) rfl hw rfl, State.remaining, hp]
  simp only [bandsBelow_of_gap h hp, if_pos hy]
  rfl

/-- Out of GAP after the last band: the Feed command follows (R171). -/
theorem remaining_toFeed_of_gap (hp : s.seq.phase = .gap) (hw : s.seq.wait = .none)
    (hy : ¬ s.seq.y + s.bandRows < s.height) : s.toFeed.remaining = s.remaining := by
  rw [remaining_of_feedStart (s := s.toFeed) rfl hw rfl, State.remaining, hp]
  simp only [bandsBelow_of_gap h hp, if_neg hy]
  rfl

end

/-- In the transmit part every move but a write's failure and a reset takes from the actions to come what it emits. -/
theorem emitted_append_remaining_of_moves {tn : Turn} {u t : State} (h : Inv u)
    (hs : u.seq.phase.sends = true ∨ u.seq.phase = .gap) (hreset : tn ≠ .reset)
    (hfail : tn = .link .fail → u.seq.wait = .write → t ≠ u.raise .transport) (hm : Moves tn u t) :
    t.emitted ++ t.remaining = u.emitted ++ u.remaining := by
  have hrender := ne_render_of_transmits hs
  have advance : t.emitted = u.emitted → t.remaining = u.remaining →
      t.emitted ++ t.remaining = u.emitted ++ u.remaining := fun he hr => by rw [he, hr]
  have hissue {phase : Phase} {buf : List Byte} (hp : u.seq.phase = phase) (hw : u.seq.wait = .none) (h0 : u.seq.off = 0)
      (hcur : buf = u.cur) (hl : 0 < buf.length) :
      (u.transmit phase buf).emitted ++ (u.transmit phase buf).remaining = u.emitted ++ u.remaining := by
    rw [transmit_eq_issue_cur hw hp h0 hcur hl]
    exact emitted_append_remaining_issue h hw (by rw [h0, ← hcur]; exact hl)
  cases hm with
  | stay => rfl
  | luma _ hp | tone _ hp | thresh _ hp | fs _ hp | atk _ hp | ord4 _ hp | ord8 _ hp | reserved _ hp | pack _ hp =>
    exact absurd hp hrender
  | issueReset _ hp hw h0 => exact hissue hp hw h0 (by rw [State.cur, hp]) (by decide)
  | issueHdr _ hp hw h0 =>
    refine hissue hp hw h0 ?_ (Nat.zero_lt_succ _)
    rw [headerBytes_of_inv h, State.cur, hp]
  | issueBody _ hp hw h0 hl => exact hissue hp hw h0 (by rw [State.cur, hp]) hl
  | issueFeed _ hp hw h0 => exact hissue hp hw h0 (by rw [State.cur, hp]) (by decide)
  | issueMore _ hw h0 hl =>
    rw [chunk_eq_issue hw hl]
    exact emitted_append_remaining_issue h hw hl
  | advReset _ hp hw hl => exact advance rfl (remaining_toFirstBand h hp hw hl)
  | advHdr _ hp hw hl => exact advance rfl (remaining_toBody hw hl hp)
  | advBodyPlain _ hp hw hl hb => exact advance rfl (remaining_toFeed_of_body hw hl hp (by omega))
  | advBodyBanded _ hp hw hl hb => exact emitted_append_remaining_toGap hw hl hp
  | advGapNext _ hp hw hy => exact advance rfl (remaining_toNextBand h hp hw hy)
  | advGapLast _ hp hw hy => exact advance rfl (remaining_toFeed_of_gap h hp hw hy)
  | advFeed _ hp hw hl => exact advance rfl (remaining_finish hw hl hp)
  | completeOk _ hw => exact emitted_append_remaining_sliceSent h hw
  | completeFail _ hw => exact absurd rfl (hfail rfl hw)
  | wake _ hw => exact emitted_append_remaining_wake (by rcases hw with hw | hw <;> simp [hw])
  | start =>
    rw [startJob_of_busy (busy_of_ne_idle h (ne_idle_of_transmits hs))]
    rfl
  | access a _ _ ha hacc => exact emitted_append_remaining_of_access hacc
  | reset => exact absurd rfl hreset

/-- Settles O53, by cases on the moves. -/
theorem emittedPlusRemainingIsConserved : Obligations.EmittedPlusRemainingIsConserved :=
  fun s _ h hs hstep hreset hfail =>
    emitted_append_remaining_of_moves (u := s.popTurn) (inv_popTurn h) hs hreset (fun hf => absurd hf hfail)
      (step_moves hstep)

end Sys2Proof.Machine
end

section
/-! SUPPORT. Every run of the transmit part: the events it has added, and where it stands, which every step keeps. -/

namespace Sys2Proof.Machine

open Sys2Proof

/-! ### The actions of a list of events -/

/-- The actions among some events; the record of a failed write is none (U16). -/
def actionsOf (l : List Event) : List Action := l.filterMap Event.action

theorem emitted_eq_actionsOf (s : State) : s.emitted = actionsOf s.history := rfl

@[simp] theorem actionsOf_nil : actionsOf [] = [] := rfl

@[simp] theorem actionsOf_append (l l' : List Event) : actionsOf (l ++ l') = actionsOf l ++ actionsOf l' :=
  List.filterMap_append

@[simp] theorem actionsOf_write_cons (k : Nat) (bs : List Byte) (l : List Event) :
    actionsOf (.write k bs :: l) = .write bs :: actionsOf l := rfl

@[simp] theorem actionsOf_failed_cons (k : Nat) (l : List Event) : actionsOf (.failed k :: l) = actionsOf l := rfl

@[simp] theorem writeCount_actionsOf_sleeps (pauses : List Half) : writeCount (actionsOf (pauses.map .sleep)) = 0 := by
  induction pauses with
  | nil => rfl
  | cons ms pauses ih => exact ih

/-- The actions up to and including a write that `k` writes precede (R172). -/
theorem uptoWrite_append {l : List Action} {k : Nat} (hk : writeCount l = k) (bs : List Byte) (rest : List Action) :
    uptoWrite k (l ++ .write bs :: rest) = l ++ [.write bs] := by
  induction l generalizing k with
  | nil =>
    obtain rfl : 0 = k := hk
    rfl
  | cons a l ih =>
    cases a with
    | sleep ms => exact congrArg (Action.sleep ms :: ·) (ih hk)
    | write bs' =>
      rw [writeCount_write_cons] at hk
      subst hk
      exact congrArg (Action.write bs' :: ·) (ih rfl)

/-! ### The agents' moves left -/

/-- No move adds to the moves the agents have left or takes from them. -/
theorem turns_of_moves {tn : Turn} {u t : State} (hm : Moves tn u t) : t.turns = u.turns := by
  have hissue : IssuesSlice u t → t.turns = u.turns := by
    rintro ⟨-, -, buf, -, rfl⟩
    rw [issue_eq]
  cases hm with
  | issueReset _ hp hw h0 => exact hissue (issuesSlice_reset hw hp h0)
  | issueHdr _ hp hw h0 => exact hissue (issuesSlice_hdr hw hp h0 _ _)
  | issueBody _ hp hw h0 hl => exact hissue (issuesSlice_body hw hp h0 hl)
  | issueFeed _ hp hw h0 => exact hissue (issuesSlice_feed hw hp h0)
  | issueMore _ hw h0 hl => exact hissue (issuesSlice_chunk hw hl)
  | advBodyBanded =>
    rcases pauseBand_cases u.toGap with he | ⟨-, he⟩ <;> rw [he] <;> rfl
  | completeOk =>
    rcases pauseChunk_cases u.sliceSent with he | ⟨-, he⟩ <;> rw [he] <;> rfl
  | start =>
    rcases startJob_cases Params.adopted.maxPix u with ⟨-, he⟩ | ⟨-, check, he⟩ | ⟨-, -, he⟩ <;> rw [he]
    · rfl
    · rw [raise_input_turns, latched_eq]
    · rw [enterRender_turns, latched_eq]
  | access a _ _ ha hacc => rw [(hostAccess_next hacc).1]
  | _ => rfl

/-! ### What a move does with the write under way -/

/-- The write under way, in a move of the transmit part from `u` to `t` that is no failure. -/
inductive WriteMove (u t : State) : Prop where
  /-- Nothing happens to it; with none outstanding a pause may start. -/
  | kept (pauses : List Half) (hs : t.seq.phase.sends = true ∨ t.seq.phase = .gap)
      (hist : t.history = u.history ++ pauses.map .sleep) (hnwr : t.seq.nwr = u.seq.nwr)
      (hwait : t.seq.wait = .write ↔ u.seq.wait = .write) (hpauses : u.seq.wait = .write → pauses = [])
  /-- It is handed over (R166). -/
  | issued (bs : List Byte) (hs : t.seq.phase.sends = true ∨ t.seq.phase = .gap)
      (hist : t.history = u.history ++ [.write u.seq.nwr bs]) (hnwr : t.seq.nwr = u.seq.nwr) (hu : u.seq.wait ≠ .write)
      (ht : t.seq.wait = .write)
  /-- It is answered ok, and its pause may start (R167). -/
  | answered (pauses : List Half) (hs : t.seq.phase.sends = true ∨ t.seq.phase = .gap)
      (hist : t.history = u.history ++ pauses.map .sleep) (hnwr : t.seq.nwr = u.seq.nwr + 1) (hu : u.seq.wait = .write)
      (ht : t.seq.wait ≠ .write)
  /-- There is none and the job is done (R187). -/
  | done (hu : u.seq.wait ≠ .write) (ht : t = u.finish)

/-- A move that leaves the transmit part, the history, NWR and the waiting as they are. -/
theorem WriteMove.unchanged {u t : State} (hs : t.seq.phase.sends = true ∨ t.seq.phase = .gap) (hist : t.history = u.history)
    (hnwr : t.seq.nwr = u.seq.nwr) (hwait : t.seq.wait = u.seq.wait) : WriteMove u t :=
  .kept [] hs (by simp [hist]) hnwr (by rw [hwait]) fun _ => rfl

theorem writeMove_of_moves {tn : Turn} {u t : State} (h : Inv u) (hs : u.seq.phase.sends = true ∨ u.seq.phase = .gap)
    (hreset : tn ≠ .reset) (hfail : tn = .link .fail → u.seq.wait = .write → t ≠ u.raise .transport) (hm : Moves tn u t) :
    WriteMove u t := by
  have hrender := ne_render_of_transmits hs
  have hissue : IssuesSlice u t → WriteMove u t := by
    rintro ⟨hw, -, buf, -, rfl⟩
    rw [issue_eq]
    exact .issued _ hs rfl rfl (by simp [hw]) rfl
  cases hm with
  | stay => exact .unchanged hs rfl rfl rfl
  | luma _ hp | tone _ hp | thresh _ hp | fs _ hp | atk _ hp | ord4 _ hp | ord8 _ hp | reserved _ hp | pack _ hp =>
    exact absurd hp hrender
  | issueReset _ hp hw h0 => exact hissue (issuesSlice_reset hw hp h0)
  | issueHdr _ hp hw h0 => exact hissue (issuesSlice_hdr hw hp h0 _ _)
  | issueBody _ hp hw h0 hl => exact hissue (issuesSlice_body hw hp h0 hl)
  | issueFeed _ hp hw h0 => exact hissue (issuesSlice_feed hw hp h0)
  | issueMore _ hw h0 hl => exact hissue (issuesSlice_chunk hw hl)
  | advReset | advHdr | advBodyPlain | advGapNext | advGapLast => exact .unchanged (.inl rfl) rfl rfl rfl
  | advBodyBanded _ hp hw hl hb =>
    rcases pauseBand_cases u.toGap with he | ⟨-, he⟩ <;> rw [he]
    · exact .unchanged (.inr rfl) rfl rfl rfl
    · exact .kept [u.job.bandDelay] (.inr rfl) rfl rfl (by simp [hw]) (by simp [hw])
  | advFeed _ hp hw hl => exact .done (by simp [hw]) rfl
  | completeOk _ hw =>
    rcases pauseChunk_cases u.sliceSent with he | ⟨-, he⟩ <;> rw [he]
    · exact .answered [] hs (by simp) rfl hw (by simp)
    · exact .answered [u.job.chunkDelay] hs rfl rfl hw (by simp)
  | completeFail _ hw => exact absurd rfl (hfail rfl hw)
  | wake _ hw => exact .kept [] hs (by simp) rfl (by rcases hw with hw | hw <;> simp [hw]) fun _ => rfl
  | start =>
    rw [startJob_of_busy (busy_of_ne_idle h (ne_idle_of_transmits hs))]
    exact .unchanged hs rfl rfl rfl
  | access a _ _ ha hacc =>
    rw [(hostAccess_next hacc).1]
    exact .unchanged hs rfl rfl rfl
  | reset => exact absurd rfl hreset

/-! ### The events of a job under way -/

/-- The events `l` of a job whose position is `q`: no failure, as many writes as NWR counts, and the outstanding one last. -/
structure OpenLog (q : Seq) (l : List Event) : Prop where
  noFailure : ∀ k, .failed k ∉ l
  completed : q.wait ≠ .write → writeCount (actionsOf l) = q.nwr
  outstanding : q.wait = .write → ∃ l' bs, l = l' ++ [.write q.nwr bs] ∧ writeCount (actionsOf l') = q.nwr

section
variable {p q : Seq} {l : List Event} (h : OpenLog p l)
include h

theorem OpenLog.kept {pauses : List Half} (hnwr : q.nwr = p.nwr) (hwait : q.wait = .write ↔ p.wait = .write)
    (hpauses : p.wait = .write → pauses = []) : OpenLog q (l ++ pauses.map .sleep) where
  noFailure k := by simpa using h.noFailure k
  completed hq := by simp [hnwr, h.completed (mt hwait.2 hq)]
  outstanding hq := by
    have hp := hwait.1 hq
    simpa [hpauses hp, hnwr] using h.outstanding hp

theorem OpenLog.issued {bs : List Byte} (hnwr : q.nwr = p.nwr) (hp : p.wait ≠ .write) (hq : q.wait = .write) :
    OpenLog q (l ++ [.write p.nwr bs]) where
  noFailure k := by simpa using h.noFailure k
  completed hne := absurd hq hne
  outstanding _ := ⟨l, bs, by rw [hnwr], by rw [hnwr, h.completed hp]⟩

theorem OpenLog.answered {pauses : List Half} (hnwr : q.nwr = p.nwr + 1) (hp : p.wait = .write) (hq : q.wait ≠ .write) :
    OpenLog q (l ++ pauses.map .sleep) where
  noFailure k := by simpa using h.noFailure k
  completed _ := by
    obtain ⟨l', bs, rfl, hcount⟩ := h.outstanding hp
    simp [hnwr, hcount]
  outstanding hw := absurd hw hq

end

/-! ### Where a run stands -/

/-- The job is under way: the actions emitted and those to come are the schedule (R172). -/
structure JobSending (s u : State) (l : List Event) : Prop where
  transmits : u.seq.phase.sends = true ∨ u.seq.phase = .gap
  log : OpenLog u.seq l
  plan : actionsOf l ++ u.remaining = s.schedule

/-- The job is done: the whole schedule is emitted (R187). -/
structure JobDone (s u : State) (l : List Event) : Prop where
  idle : u.seq.phase = .idle
  done : u.status.done = true
  noFailure : ∀ k, .failed k ∉ l
  plan : actionsOf l = s.schedule
  count : u.seq.nwr = writeCount s.schedule

/-- Write `k` has failed: the schedule is emitted up to and including it, and the job has ended in TransportError
(R168, R207). -/
structure JobFailed (s u : State) (l : List Event) (k : Nat) : Prop where
  idle : u.seq.phase = .idle
  record : ∃ l', l = l' ++ [.failed k] ∧ ∀ j, .failed j ∉ l'
  isWrite : k < writeCount s.schedule
  plan : actionsOf l = uptoWrite k s.schedule
  err : u.status.err = true
  code : u.status.errcode = 2#2
  info : u.errinfo.toNat = k

/-- Where a run from the start `s` of the transmit part stands in `u`, having added the events `l`. -/
def Stands (s u : State) (l : List Event) : Prop := JobSending s u l ∨ JobDone s u l ∨ ∃ k, JobFailed s u l k

/-- Whose turn it is makes no difference. -/
theorem Stands.popTurn {s u : State} {l : List Event} (h : Stands s u l) : Stands s u.popTurn l := by
  rcases h with ⟨hs, hlog, hplan⟩ | ⟨hp, hdone, hno, hplan, hcount⟩ | ⟨k, hp, hrec, hk, hplan, herr, hcode, hinfo⟩
  · exact .inl ⟨hs, hlog, hplan⟩
  · exact .inr (.inl ⟨hp, hdone, hno, hplan, hcount⟩)
  · exact .inr (.inr ⟨k, hp, hrec, hk, hplan, herr, hcode, hinfo⟩)

/-- A write's failure stops the schedule at the outstanding write (R168). -/
theorem JobSending.fails {s u : State} {l : List Event} (hjob : JobSending s u l) (h : Inv u) (hw : u.seq.wait = .write) :
    JobFailed s (u.raise .transport) (l ++ [.failed u.seq.nwr]) u.seq.nwr := by
  obtain ⟨l', bs, hl, hcount⟩ := hjob.log.outstanding hw
  have hplan : s.schedule = actionsOf l' ++ .write bs :: u.remaining := by
    rw [← hjob.plan, hl]
    simp
  have hrange := nwr_le_of_sends h (h.wait.onlyWhileSending (.inl hw))
  refine ⟨rfl, ⟨l, rfl, hjob.log.noFailure⟩, ?_, ?_, rfl, rfl, ?_⟩
  · rw [hplan, writeCount_append, writeCount_write_cons, hcount]
    omega
  · rw [hplan, uptoWrite_append hcount, hl]
    simp
  · rw [raise_transport_errinfo, BitVec.toNat_ofNat, Nat.mod_eq_of_lt (by omega)]

/-- A move of a job under way. -/
theorem JobSending.moves {s u t : State} {l : List Event} {tn : Turn} (hjob : JobSending s u l) (h : Inv u)
    (hist : u.history = s.history ++ l) (hreset : tn ≠ .reset) (hm : Moves tn u t) :
    ∃ l', t.history = s.history ++ l' ∧ Stands s t l' := by
  by_cases hfail : u.seq.wait = .write ∧ t = u.raise .transport
  · obtain ⟨hw, rfl⟩ := hfail
    exact ⟨l ++ [.failed u.seq.nwr], by simp [hist], .inr (.inr ⟨_, hjob.fails h hw⟩)⟩
  · have hno : tn = .link .fail → u.seq.wait = .write → t ≠ u.raise .transport := fun _ hw ht => hfail ⟨hw, ht⟩
    have hkeep := emitted_append_remaining_of_moves h hjob.transmits hreset hno hm
    have hplan {x : List Event} (hx : t.history = u.history ++ x) : actionsOf (l ++ x) ++ t.remaining = s.schedule := by
      rw [emitted_eq_actionsOf, emitted_eq_actionsOf, hx, hist] at hkeep
      simpa [← hjob.plan] using hkeep
    cases writeMove_of_moves h hjob.transmits hreset hno hm with
    | kept pauses hs hx hnwr hwait hpauses =>
      exact ⟨_, by rw [hx, hist, List.append_assoc], .inl ⟨hs, hjob.log.kept hnwr hwait hpauses, hplan hx⟩⟩
    | issued bs hs hx hnwr hu ht =>
      exact ⟨_, by rw [hx, hist, List.append_assoc], .inl ⟨hs, hjob.log.issued hnwr hu ht, hplan hx⟩⟩
    | answered pauses hs hx hnwr hu ht =>
      exact ⟨_, by rw [hx, hist, List.append_assoc], .inl ⟨hs, hjob.log.answered hnwr hu ht, hplan hx⟩⟩
    | done hu ht =>
      subst ht
      have hall : actionsOf l = s.schedule := by simpa [State.remaining] using hplan (x := []) (by simp)
      exact ⟨l, hist, .inr (.inl ⟨rfl, rfl, hjob.log.noFailure, hall, by rw [← hall, hjob.log.completed hu]; rfl⟩)⟩

/-- A move keeps where a run stands: a job under way goes on, is done or fails, and an idle block does nothing (R217). -/
theorem stands_of_moves {s u t : State} {l : List Event} {tn : Turn} (h : Inv u) (hist : u.history = s.history ++ l)
    (hstands : Stands s u l) (hreset : tn ≠ .reset) (hstart : tn ≠ .host (.writeCtrl 1#1)) (hm : Moves tn u t) :
    ∃ l', t.history = s.history ++ l' ∧ Stands s t l' := by
  have idle (hp : u.seq.phase = .idle) :=
    moves_of_idle hp (wait_none_of_not_transmitting h (by simp [hp, Phase.sends]) (by simp [hp])).1 hreset hstart hm
  rcases hstands with hjob | hjob | ⟨k, hjob⟩
  · exact hjob.moves h hist hreset hm
  · obtain ⟨hseq, hhist, hstatus, -⟩ := idle hjob.idle
    refine ⟨l, hhist.trans hist, .inr (.inl ⟨?_, ?_, hjob.noFailure, hjob.plan, ?_⟩)⟩
    · rw [hseq, hjob.idle]
    · rw [hstatus, hjob.done]
    · rw [hseq, hjob.count]
  · obtain ⟨hseq, hhist, hstatus, hinfo, -⟩ := idle hjob.idle
    refine ⟨l, hhist.trans hist, .inr (.inr ⟨k, ?_, hjob.record, hjob.isWrite, hjob.plan, ?_, ?_, ?_⟩)⟩
    · rw [hseq, hjob.idle]
    · rw [hstatus, hjob.err]
    · rw [hstatus, hjob.code]
    · rw [hinfo, hjob.info]

/-! ### Runs -/

/-- What every step keeps holds after every run. -/
theorem runSteps_induction {P : State → Prop} (hstep : ∀ u t, P u → step u = .next t → P t) {s t : State} {n : Nat}
    (hs : P s) (hrun : runSteps n s = .next t) : P t := by
  induction n generalizing s with
  | zero =>
    obtain rfl : s = t := Host.Outcome.next.inj hrun
    exact hs
  | succ n ih =>
    rw [runSteps] at hrun
    cases hu : step s with
    | next u =>
      rw [hu] at hrun
      exact ih (hstep s u hs hu) hrun
    | fault r => simp [hu] at hrun
    | refused r => simp [hu] at hrun

/-- What every step of a run from the start `s` of the transmit part keeps, without a reset or a START to come. -/
structure RunReaches (s u : State) : Prop where
  inv : Inv u
  turns : ∀ tn ∈ u.turns, tn ≠ .reset ∧ tn ≠ .host (.writeCtrl 1#1)
  stands : ∃ l, u.history = s.history ++ l ∧ Stands s u l

theorem runReaches_step {s u t : State} (h : RunReaches s u) (hstep : step u = .next t) : RunReaches s t := by
  obtain ⟨l, hist, hstands⟩ := h.stands
  have hm := step_moves hstep
  have hnext : u.nextTurn ≠ .reset ∧ u.nextTurn ≠ .host (.writeCtrl 1#1) := by
    cases hu : u.turns with
    | nil => simp [State.nextTurn, hu]
    | cons tn rest => simpa [State.nextTurn, hu] using h.turns tn (by simp [hu])
  refine ⟨inv_of_moves (inv_popTurn h.inv) hm, fun tn htn => h.turns tn ?_,
    stands_of_moves (u := u.popTurn) (inv_popTurn h.inv) hist hstands.popTurn hnext.1 hnext.2 hm⟩
  rw [turns_of_moves hm] at htn
  exact List.mem_of_mem_tail htn

/-- At the start of the transmit part the whole schedule is to come (R172, R185). -/
theorem remaining_of_start {s : State} (hstart : AtTransmitStart s) : s.remaining = s.schedule := by
  simp [State.remaining, State.restOfBuffer, State.cur, State.schedule, show s.seq = _ from hstart]

theorem runReaches_start {s : State} (h : Inv s) (hstart : AtTransmitStart s)
    (hturns : ∀ tn ∈ s.turns, tn ≠ .reset ∧ tn ≠ .host (.writeCtrl 1#1)) : RunReaches s s := by
  have hseq : s.seq = _ := hstart
  refine ⟨h, hturns, [], by simp, .inl ⟨.inl (by rw [hseq]; rfl), ⟨by simp, by simp [hseq], by simp [hseq]⟩, ?_⟩⟩
  simpa using remaining_of_start hstart

/-- Where every run from the start of the transmit part stands, however the agents interleave. -/
theorem runReaches_of_run {s t : State} {n : Nat} (h : Inv s) (hstart : AtTransmitStart s)
    (hturns : ∀ tn ∈ s.turns, tn ≠ .reset ∧ tn ≠ .host (.writeCtrl 1#1)) (hrun : runSteps n s = .next t) : RunReaches s t :=
  runSteps_induction (fun _ _ => runReaches_step) (runReaches_start h hstart hturns) hrun

/-! ### What a run has emitted -/

theorem uptoWrite_prefix (k : Nat) (l : List Action) : uptoWrite k l <+: l := by
  induction l generalizing k with
  | nil => exact List.prefix_rfl
  | cons a l ih =>
    cases a with
    | sleep ms => exact (List.prefix_cons_inj _).2 (ih k)
    | write bs =>
      cases k with
      | zero => exact (List.prefix_cons_inj _).2 List.nil_prefix
      | succ k => exact (List.prefix_cons_inj _).2 (ih k)

/-- What a run has emitted is the beginning of the schedule (R172). -/
theorem Stands.emitted_prefix {s u : State} {l : List Event} (h : Stands s u l) : actionsOf l <+: s.schedule := by
  rcases h with hjob | hjob | ⟨k, hjob⟩
  · exact ⟨_, hjob.plan⟩
  · rw [hjob.plan]
  · rw [hjob.plan]
    exact uptoWrite_prefix k _

/-- With DONE set only the job that ran to its end is left. -/
theorem Stands.jobDone {s u : State} {l : List Event} (hstands : Stands s u l) (h : Inv u) (hdone : u.status.done = true) :
    JobDone s u l := by
  obtain ⟨hbusy, herr⟩ := h.status.doneExcludes hdone
  rcases hstands with hjob | hjob | ⟨k, hjob⟩
  · exact absurd (busy_of_ne_idle h (ne_idle_of_transmits hjob.transmits)) (by simp [hbusy])
  · exact hjob
  · exact absurd hjob.err (by simp [herr])

/-- Where the events hold the failure of write `k`, that failure is the one that ended the job. -/
theorem Stands.jobFailed {s u : State} {l : List Event} {k : Nat} (h : Stands s u l) (hk : .failed k ∈ l) :
    JobFailed s u l k := by
  rcases h with hjob | hjob | ⟨j, hjob⟩
  · exact absurd hk (hjob.log.noFailure k)
  · exact absurd hk (hjob.noFailure k)
  · obtain ⟨l', rfl, hno⟩ := hjob.record
    obtain rfl : k = j := by simpa [hno k] using hk
    exact hjob

/-- Settles O54: a run stands in the job under way, at its end or at its failure, and each has emitted its beginning. -/
theorem emittedIsPrefixOfSchedule : Obligations.EmittedIsPrefixOfSchedule := by
  intro s t n h hstart hturns hrun
  obtain ⟨hinv, -, l, hist, hstands⟩ := runReaches_of_run h hstart hturns hrun
  have hemitted : t.emitted = s.emitted ++ actionsOf l := by
    rw [emitted_eq_actionsOf, hist, actionsOf_append, emitted_eq_actionsOf]
  have hseq : s.seq = _ := hstart
  have hcs := h.job.chunkSize (busy_of_ne_idle h (by simp [hseq]))
  refine ⟨⟨actionsOf l, hemitted, hstands.emitted_prefix, ?_⟩, fun hdone => ?_⟩
  · rw [← bytes_schedule hcs]
    exact hstands.emitted_prefix.flatMap _
  · rw [hemitted, (hstands.jobDone hinv hdone).plan]

/-- In every run that records the failure of write `k` the schedule stops at that write, in TransportError (R168, R172). -/
theorem run_of_failure {s t : State} {n k : Nat} {l : List Event} (h : Inv s) (hstart : AtTransmitStart s)
    (hturns : ∀ tn ∈ s.turns, tn ≠ .reset ∧ tn ≠ .host (.writeCtrl 1#1)) (hrun : runSteps n s = .next t)
    (hist : t.history = s.history ++ l) (hk : .failed k ∈ l) :
    k < writeCount s.schedule ∧ t.emitted = s.emitted ++ uptoWrite k s.schedule ∧ t.errinfo.toNat = k ∧
      t.seq.phase = .idle ∧ t.status.err = true ∧ t.status.errcode = 2#2 ∧ t.status.busy = false ∧ t.status.done = false := by
  obtain ⟨hinv, -, l', hist', hstands⟩ := runReaches_of_run h hstart hturns hrun
  obtain rfl : l = l' := List.append_cancel_left (hist.symm.trans hist')
  have hjob := hstands.jobFailed hk
  have hnotDone : t.status.done = false := by
    by_contra hdone
    have hnoErr := (hinv.status.doneExcludes (by simpa using hdone)).2
    simp [hjob.err] at hnoErr
  refine ⟨hjob.isWrite, ?_, hjob.info, hjob.idle, hjob.err, hjob.code, hinv.status.errExcludes hjob.err, hnotDone⟩
  rw [emitted_eq_actionsOf, hist, actionsOf_append, hjob.plan, emitted_eq_actionsOf]

end Sys2Proof.Machine
end

section
/-! SUPPORT. The run of the transmit part in which LINK answers ok and TIMER ends its sleeps: in every state one of SEQ, LINK and
TIMER has a move that brings the job on, so it comes to each of its writes, and to its end. -/

namespace Sys2Proof.Machine

open Sys2Proof

/-! ### States that differ in the moves the agents have left -/

theorem inv_setTurns {s : State} (h : Inv s) (rest : List Turn) : Inv { s with turns := rest } :=
  inv_of_same_position h ⟨_, rfl⟩ rfl rfl rfl ⟨h.memories.pix, h.memories.lum, h.memories.pk⟩ h.stage.outside

theorem pauseChunk_setTurns (s : State) (rest : List Turn) :
    ({ s with turns := rest } : State).pauseChunk = { s.pauseChunk with turns := rest } := by
  by_cases hd : 0 < s.job.chunkDelay.toNat
  · rw [show s.pauseChunk = s.emitSleep s.job.chunkDelay .csleep from if_pos hd]
    exact if_pos hd
  · rw [show s.pauseChunk = s from if_neg hd]
    exact if_neg hd

theorem pauseBand_setTurns (s : State) (rest : List Turn) :
    ({ s with turns := rest } : State).pauseBand = { s.pauseBand with turns := rest } := by
  by_cases hd : 0 < s.bandRows ∧ 0 < s.job.bandDelay.toNat
  · rw [show s.pauseBand = s.emitSleep s.job.bandDelay .bsleep from if_pos hd]
    exact if_pos hd
  · rw [show s.pauseBand = s from if_neg hd]
    exact if_neg hd

/-! ### SEQ's move while bytes are left -/

/-- With nothing outstanding and bytes left SEQ's turn is an *issue* of the current buffer, first slice or not (R166). -/
theorem seqTurn_issue {s : State} (h : Inv s) (hw : s.seq.wait = .none) (hl : s.seq.off < s.cur.length) :
    (seqTurn s).outcome = .next (s.issue s.cur) := by
  rcases Nat.eq_zero_or_pos s.seq.off with h0 | h0
  · have hpos : 0 < s.cur.length := by omega
    rw [seqTurn_first hw h0 hpos]
    have first {phase : Phase} {buf : List Byte} (hp : s.seq.phase = phase) (hcur : buf = s.cur) :
        s.transmit phase buf = s.issue s.cur := transmit_eq_issue_cur hw hp h0 hcur (hcur ▸ hpos)
    cases hp : s.seq.phase with
    | reset =>
      rw [txOperation, hp]
      exact congrArg _ (first hp (by rw [State.cur, hp]))
    | hdr =>
      rw [txOperation, hp]
      exact congrArg _ (first hp ((headerBytes_of_inv h).trans (by rw [State.cur, hp])))
    | body =>
      rw [txOperation, hp]
      exact congrArg _ (first hp (by rw [State.cur, hp]))
    | feed =>
      rw [txOperation, hp]
      exact congrArg _ (first hp (by rw [State.cur, hp]))
    | idle => simp [State.cur, hp] at hpos
    | render => simp [State.cur, hp] at hpos
    | gap => simp [State.cur, hp] at hpos
  · rw [seqTurn_more hw h0 hl]
    exact congrArg _ (chunk_eq_issue hw hl)

/-! ### How far the next event is -/

/-- How far the next event is: at an *issue* it is the next move, and each other wait or *advance* comes before one
(R166 to R171). -/
def State.delay (s : State) : Nat :=
  match s.seq.wait with
  | .write => 4
  | .csleep => 3
  | .bsleep => 3
  | .none => if s.seq.off < s.cur.length then 0 else if s.seq.phase = .gap then 1 else 2

section
variable {s : State}

theorem delay_write (hw : s.seq.wait = .write) : s.delay = 4 := by simp only [State.delay, hw]

theorem delay_pause (hw : s.seq.wait = .csleep ∨ s.seq.wait = .bsleep) : s.delay = 3 := by
  rcases hw with hw | hw <;> simp only [State.delay, hw]

theorem delay_none_le (hw : s.seq.wait = .none) : s.delay ≤ 2 := by
  simp only [State.delay, hw]
  split
  · omega
  · split <;> omega

theorem delay_issue (hw : s.seq.wait = .none) (hl : s.seq.off < s.cur.length) : s.delay = 0 := by
  simp only [State.delay, hw, if_pos hl]

theorem delay_gap (hw : s.seq.wait = .none) (hp : s.seq.phase = .gap) : s.delay = 1 := by
  simp [State.delay, hw, hp, State.cur]

theorem delay_sent (hw : s.seq.wait = .none) (hp : s.seq.phase ≠ .gap) (hl : s.seq.off = s.cur.length) : s.delay = 2 := by
  simp [State.delay, hw, hp, hl]

theorem delay_le (s : State) : s.delay ≤ 4 := by
  cases hw : s.seq.wait with
  | none => exact (delay_none_le hw).trans (by omega)
  | write => exact (delay_write hw).le
  | csleep => exact (delay_pause (.inl hw)).trans_le (by omega)
  | bsleep => exact (delay_pause (.inr hw)).trans_le (by omega)

end

/-- The move from `u` to `v` brings the job on: an event is emitted, or the next one comes nearer. -/
def BringsOn (u v : State) : Prop :=
  u.emitted.length < v.emitted.length ∨ (v.emitted = u.emitted ∧ v.delay < u.delay)

/-- A move that emits an action brings the job on. -/
theorem bringsOn_of_emitted {u v : State} {e : Event} {a : Action} (hist : v.history = u.history ++ [e])
    (he : e.action = some a) : BringsOn u v := by
  left
  simp [State.emitted, hist, he]

/-! ### A move that brings the job on -/

/-- The move of agent `tn`, SEQ, LINK with ok or TIMER, takes `u` to `v`, and brings the job on or ends it. -/
structure FairStep (u : State) (tn : Turn) (v : State) : Prop where
  step : ∀ rest, step { u with turns := tn :: rest } = .next { v with turns := rest }
  agent : ((tn = .seq ∨ tn = .timer) ∧ v.seq.nwr = u.seq.nwr) ∨
    (tn = .link .ok ∧ u.seq.wait = .write ∧ v.seq.nwr = u.seq.nwr + 1)
  pix : v.pix = u.pix
  pk : v.pk = u.pk
  onward : (v.seq.phase = .idle ∧ v.status.done = true) ∨
    ((v.seq.phase.sends = true ∨ v.seq.phase = .gap) ∧ BringsOn u v)

section
variable {u : State}

/-- LINK's ok (R167). -/
theorem fairStep_ok (hs : u.seq.phase.sends = true) (hw : u.seq.wait = .write) :
    FairStep u (.link .ok) u.sliceSent.pauseChunk := by
  have hstep (rest : List Turn) :
      Machine.step { u with turns := .link .ok :: rest } = .next { u.sliceSent.pauseChunk with turns := rest } := by
    rw [step_link, linkTurn_ok (s := { u with turns := rest }) hw, ← pauseChunk_setTurns]
    rfl
  rcases pauseChunk_cases u.sliceSent with he | ⟨-, he⟩ <;> rw [he] at hstep ⊢
  · refine ⟨hstep, .inr ⟨rfl, hw, rfl⟩, rfl, rfl, .inr ⟨.inl hs, .inr ⟨rfl, ?_⟩⟩⟩
    rw [delay_write hw]
    exact (delay_none_le rfl).trans_lt (by omega)
  · exact ⟨hstep, .inr ⟨rfl, hw, rfl⟩, rfl, rfl, .inr ⟨.inl hs, bringsOn_of_emitted rfl rfl⟩⟩

/-- TIMER's wake (R169). -/
theorem fairStep_wake (hs : u.seq.phase.sends = true ∨ u.seq.phase = .gap)
    (hw : u.seq.wait = .csleep ∨ u.seq.wait = .bsleep) : FairStep u .timer u.wake := by
  have hstep (rest : List Turn) := (step_timer u rest).trans (timerTurn_wake (s := { u with turns := rest }) hw)
  refine ⟨hstep, .inl ⟨.inr rfl, rfl⟩, rfl, rfl, .inr ⟨hs, .inr ⟨rfl, ?_⟩⟩⟩
  rw [delay_pause hw]
  exact (delay_none_le rfl).trans_lt (by omega)

section
variable (hw : u.seq.wait = .none)
include hw

/-- SEQ's *issue* (R166). -/
theorem fairStep_issue (h : Inv u) (hl : u.seq.off < u.cur.length) : FairStep u .seq (u.issue u.cur) := by
  have hstep (rest : List Turn) := (step_seq u rest).trans (seqTurn_issue (inv_setTurns h rest) hw hl)
  refine ⟨hstep, .inl ⟨.inl rfl, rfl⟩, rfl, rfl, .inr ⟨.inl (sends_of_off_lt hl), ?_⟩⟩
  rw [issue_eq]
  exact bringsOn_of_emitted rfl rfl

/-- Where nothing is left to send SEQ's turn is *advance*, of which the next event is at least one move away (R171). -/
theorem seqTurn_advance (hend : u.seq.phase = .gap ∨ (u.seq.phase.sends = true ∧ u.seq.off = u.cur.length)) :
    (∀ rest, step { u with turns := .seq :: rest } = (advance { u with turns := rest }).outcome) ∧ 0 < u.delay := by
  rcases hend with hp | ⟨hs, hl⟩
  · refine ⟨fun rest => ?_, by rw [delay_gap hw hp]; omega⟩
    rw [step_seq, seqTurn_gap (s := { u with turns := rest }) hp hw]
  · have hp : u.seq.phase ≠ .gap := fun hp => by simp [hp, Phase.sends] at hs
    refine ⟨fun rest => ?_, by rw [delay_sent hw hp hl]; omega⟩
    rw [step_seq, seqTurn_sent (s := { u with turns := rest }) hs hw hl]

/-- *advance* to the start of a buffer: the next event is its *issue*, so it has come nearer (R171). -/
theorem fairStep_advance {q : Seq} (hend : u.seq.phase = .gap ∨ (u.seq.phase.sends = true ∧ u.seq.off = u.cur.length))
    (hq : q.phase.sends = true) (hqw : q.wait = .none) (hq0 : q.off = 0) (hnwr : q.nwr = u.seq.nwr)
    (hlen : 0 < q.phase.bufferLen u.rowBytes q.rows)
    (hadvance : ∀ rest, (advance { u with turns := rest }).outcome = .next { u with seq := q, turns := rest }) :
    FairStep u .seq { u with seq := q } := by
  obtain ⟨hturn, hfar⟩ := seqTurn_advance hw hend
  have hcur : ({ u with seq := q } : State).cur.length = q.phase.bufferLen u.rowBytes q.rows := cur_length _
  have hnear : ({ u with seq := q } : State).delay = 0 := delay_issue hqw (by rw [hcur]; exact hq0.trans_lt hlen)
  exact ⟨fun rest => (hturn rest).trans (hadvance rest), .inl ⟨.inl rfl, hnwr⟩, rfl, rfl,
    .inr ⟨.inl hq, .inr ⟨rfl, hnear.trans_lt hfar⟩⟩⟩

/-- *advance* into GAP: the band pause is emitted, or GAP's own move comes next (R147, R171). -/
theorem fairStep_toGap (hp : u.seq.phase = .body) (hl : u.seq.off = u.cur.length) (hb : 0 < u.bandRows) :
    FairStep u .seq u.toGap.pauseBand := by
  obtain ⟨hturn, -⟩ := seqTurn_advance hw (.inr ⟨by simp [hp, Phase.sends], hl⟩)
  have hstep (rest : List Turn) :
      Machine.step { u with turns := .seq :: rest } = .next { u.toGap.pauseBand with turns := rest } := by
    rw [hturn, advance_body_banded (s := { u with turns := rest }) hp hw hb, ← pauseBand_setTurns]
    rfl
  rcases pauseBand_cases u.toGap with he | ⟨-, he⟩ <;> rw [he] at hstep ⊢
  · refine ⟨hstep, .inl ⟨.inl rfl, rfl⟩, rfl, rfl, .inr ⟨.inr rfl, .inr ⟨rfl, ?_⟩⟩⟩
    rw [delay_gap (s := u.toGap) hw rfl, delay_sent hw (by simp [hp]) hl]
    omega
  · exact ⟨hstep, .inl ⟨.inl rfl, rfl⟩, rfl, rfl, .inr ⟨.inr rfl, bringsOn_of_emitted rfl rfl⟩⟩

/-- At the end of a buffer SEQ's *advance* brings the job on, or ends it (R171, R187). -/
theorem exists_fairStep_sent (h : Inv u) (hs : u.seq.phase.sends = true) (hl : u.seq.off = u.cur.length) :
    ∃ v, FairStep u .seq v := by
  have onward {q : Seq} := fairStep_advance (q := q) hw (.inr ⟨hs, hl⟩)
  cases hp : u.seq.phase with
  | idle => simp [hp, Phase.sends] at hs
  | render => simp [hp, Phase.sends] at hs
  | gap => simp [hp, Phase.sends] at hs
  | reset => exact ⟨_, onward (q := u.toFirstBand.seq) rfl hw rfl rfl (Nat.zero_lt_succ _) fun _ => advance_reset hp⟩
  | hdr =>
    have hwidth := h.job.width (busy_of_ne_idle h (by simp [hp]))
    have hbytes : 0 < u.rowBytes * u.seq.rows :=
      Nat.mul_pos (rowBytesOf_bounds hwidth (Nat.le_of_lt_succ u.job.w.isLt)).1 (band_of_position h (.inl hp)).1
    exact ⟨_, onward (q := u.toBody.seq) rfl hw rfl rfl hbytes fun _ => advance_hdr hp⟩
  | body =>
    rcases Nat.eq_zero_or_pos u.bandRows with hb | hb
    · exact ⟨_, onward (q := u.toFeed.seq) rfl hw rfl rfl (Nat.zero_lt_succ _) fun _ => advance_body_plain hp hb⟩
    · exact ⟨_, fairStep_toGap hw hp hl hb⟩
  | feed =>
    obtain ⟨hturn, -⟩ := seqTurn_advance hw (.inr ⟨hs, hl⟩)
    exact ⟨u.finish, fun rest => (hturn rest).trans (advance_feed hp), .inl ⟨.inl rfl, rfl⟩, rfl, rfl, .inl ⟨rfl, rfl⟩⟩

/-- In GAP with no pause pending SEQ's *advance* brings the job on (R171). -/
theorem exists_fairStep_gap (hp : u.seq.phase = .gap) : ∃ v, FairStep u .seq v := by
  have onward {q : Seq} := fairStep_advance (q := q) hw (.inl hp)
  by_cases hy : u.seq.y + u.bandRows < u.height
  · exact ⟨_, onward (q := u.toNextBand.seq) rfl hw rfl rfl (Nat.zero_lt_succ _) fun _ => advance_gap_next hp hy⟩
  · exact ⟨_, onward (q := u.toFeed.seq) rfl hw rfl rfl (Nat.zero_lt_succ _) fun _ => advance_gap_last hp hy⟩

end

/-- In the transmit part one of the three agents has a move that brings the job on, or ends it. -/
theorem exists_fairStep (h : Inv u) (hs : u.seq.phase.sends = true ∨ u.seq.phase = .gap) : ∃ tn v, FairStep u tn v := by
  cases hw : u.seq.wait with
  | write => exact ⟨_, _, fairStep_ok (h.wait.onlyWhileSending (.inl hw)) hw⟩
  | csleep => exact ⟨_, _, fairStep_wake hs (.inl hw)⟩
  | bsleep => exact ⟨_, _, fairStep_wake hs (.inr hw)⟩
  | none =>
    rcases hs with hs | hp
    · rcases (h.position.offInBuffer hs).lt_or_eq with hl | hl
      · exact ⟨_, _, fairStep_issue hw h hl⟩
      · exact ⟨_, exists_fairStep_sent hw h hs hl⟩
    · exact ⟨_, exists_fairStep_gap hw hp⟩

end

/-! ### The run -/

/-- How much of the job is left: the events to come, and how far the next one is. -/
def State.pending (s : State) : Nat := 5 * s.remaining.length + s.delay

section
variable {u v : State} {tn : Turn} (hstep : FairStep u tn v) (h : Inv u)
include hstep h

theorem FairStep.inv : Inv v :=
  inv_setTurns (stepKeepsInvariant _ _ (inv_setTurns h [tn]) (hstep.step [])) v.turns

/-- A move that brings the job on leaves less of it: what it emits is taken from the actions to come (R172). -/
theorem FairStep.pending_lt (hs : u.seq.phase.sends = true ∨ u.seq.phase = .gap) (hon : BringsOn u v) :
    v.pending < u.pending := by
  have hturn : tn ≠ .reset ∧ tn ≠ .link .fail := by
    rcases hstep.agent with ⟨rfl | rfl, -⟩ | ⟨rfl, -⟩ <;> simp
  have hkeep : v.emitted ++ v.remaining = u.emitted ++ u.remaining :=
    emittedPlusRemainingIsConserved { u with turns := [tn] } { v with turns := [] } (inv_setTurns h [tn]) hs (hstep.step [])
      hturn.1 hturn.2
  have hlen := congrArg List.length hkeep
  rw [List.length_append, List.length_append] at hlen
  have hdelay := delay_le v
  unfold State.pending
  rcases hon with hmore | ⟨hsame, hnear⟩
  · omega
  · rw [hsame] at hlen
    omega

end

/-- A run of SEQ, LINK's ok and TIMER from `u` to `v`, whatever moves the agents have left after it. -/
structure FairRun (u v : State) (turns : List Turn) : Prop where
  run : ∀ rest, runSteps turns.length { u with turns := turns ++ rest } = .next { v with turns := rest }
  agents : ∀ tn ∈ turns, tn = .seq ∨ tn = .link .ok ∨ tn = .timer
  answers : ∃ n, linkAnswers turns = List.replicate n .ok ∧ v.seq.nwr = u.seq.nwr + n
  pix : v.pix = u.pix
  pk : v.pk = u.pk

theorem FairRun.refl (u : State) : FairRun u u [] := ⟨fun _ => rfl, by simp, ⟨0, rfl, rfl⟩, rfl, rfl⟩

theorem FairRun.cons {u v t : State} {tn : Turn} {turns : List Turn} (hstep : FairStep u tn v) (hrun : FairRun v t turns) :
    FairRun u t (tn :: turns) where
  run rest := by
    rw [List.length_cons, runSteps, List.cons_append, hstep.step]
    exact hrun.run rest
  agents tn' htn := by
    rcases List.mem_cons.1 htn with rfl | hmem
    · rcases hstep.agent with ⟨rfl | rfl, -⟩ | ⟨rfl, -⟩ <;> simp
    · exact hrun.agents tn' hmem
  answers := by
    obtain ⟨n, hn, hcount⟩ := hrun.answers
    rcases hstep.agent with ⟨rfl | rfl, hnwr⟩ | ⟨rfl, -, hnwr⟩
    · exact ⟨n, hn, hnwr ▸ hcount⟩
    · exact ⟨n, hn, hnwr ▸ hcount⟩
    · exact ⟨n + 1, congrArg (LinkAnswer.ok :: ·) hn, by omega⟩
  pix := hrun.pix.trans hstep.pix
  pk := hrun.pk.trans hstep.pk

/-- From everywhere in the transmit part the run comes to write `k` outstanding, unless the job is done before. -/
theorem exists_fairRun {k : Nat} {u : State} (h : Inv u) (hs : u.seq.phase.sends = true ∨ u.seq.phase = .gap)
    (hk : u.seq.nwr ≤ k) :
    ∃ turns t, FairRun u t turns ∧
      ((t.seq.wait = .write ∧ t.seq.nwr = k) ∨ (t.seq.phase = .idle ∧ t.status.done = true ∧ t.seq.nwr ≤ k)) := by
  by_cases hat : u.seq.wait = .write ∧ u.seq.nwr = k
  · exact ⟨[], u, .refl u, .inl hat⟩
  · obtain ⟨tn, v, hstep⟩ := exists_fairStep h hs
    have hkv : v.seq.nwr ≤ k := by
      rcases hstep.agent with ⟨-, hnwr⟩ | ⟨-, hw, hnwr⟩
      · omega
      · have hne : u.seq.nwr ≠ k := fun he => hat ⟨hw, he⟩
        omega
    rcases hstep.onward with ⟨hp, hdone⟩ | ⟨hsv, hon⟩
    · exact ⟨[tn], v, .cons hstep (.refl v), .inr ⟨hp, hdone, hkv⟩⟩
    · have hless := hstep.pending_lt h hs hon
      obtain ⟨turns, t, hrun, ht⟩ := exists_fairRun (hstep.inv h) hsv hkv
      exact ⟨tn :: turns, t, .cons hstep hrun, ht⟩
termination_by u.pending

/-! ### The end of the run -/

/-- A run in two parts. -/
theorem runSteps_add {m n : Nat} {s t : State} (h : runSteps m s = .next t) : runSteps (m + n) s = runSteps n t := by
  induction m generalizing s with
  | zero =>
    obtain rfl : s = t := Host.Outcome.next.inj h
    rw [Nat.zero_add]
  | succ m ih =>
    rw [Nat.succ_add]
    rw [runSteps] at h ⊢
    cases hu : step s with
    | next u =>
      rw [hu] at h
      exact ih h
    | fault r => simp [hu] at h
    | refused r => simp [hu] at h

/-- The bytes of the events are those of their actions (R44). -/
theorem bytes_actionsOf (l : List Event) : (actionsOf l).flatMap Action.bytes = l.flatMap Event.bytes := by
  induction l with
  | nil => rfl
  | cons e l ih =>
    rw [List.flatMap_cons, ← ih]
    cases e <;> rfl

/-- An outstanding write is one of the schedule's: the job is under way (R170). -/
theorem Stands.write_lt {s u : State} {l : List Event} (hstands : Stands s u l) (h : Inv u) (hw : u.seq.wait = .write) :
    u.seq.nwr < writeCount s.schedule := by
  have hactive := ne_idle_of_transmits (.inl (h.wait.onlyWhileSending (.inl hw)))
  rcases hstands with hjob | hjob | ⟨k, hjob⟩
  · exact (hjob.fails h hw).isWrite
  · exact absurd hjob.idle hactive
  · exact absurd hjob.idle hactive

/-- A run of SEQ, LINK's ok and TIMER from the start of the transmit part is a run, whatever moves are left after it. -/
theorem FairRun.reaches {s t : State} {turns : List Turn} (hrun : FairRun s t turns) (h : Inv s) (hstart : AtTransmitStart s)
    (rest : List Turn) (hrest : ∀ tn ∈ rest, tn ≠ .reset ∧ tn ≠ .host (.writeCtrl 1#1)) :
    RunReaches { s with turns := turns ++ rest } { t with turns := rest } := by
  refine runReaches_of_run (inv_setTurns h _) hstart (fun tn htn => ?_) (hrun.run rest)
  rcases List.mem_append.1 htn with hmem | hmem
  · rcases hrun.agents tn hmem with rfl | rfl | rfl <;> simp
  · exact hrest tn hmem

/-- Settles O55: the run cannot come to a write beyond the schedule's last, so it comes to the end of the job. -/
theorem jobRunsToDone : Obligations.JobRunsToDone := by
  intro s h hstart
  have hseq : s.seq = _ := hstart
  have hbusy := busy_of_ne_idle h (by simp [hseq])
  obtain ⟨turns, t, hrun, hend⟩ :=
    exists_fairRun (k := writeCount s.schedule) h (.inl (by rw [hseq]; rfl)) (by simp [hseq])
  obtain ⟨hinv, -, l, hist, hstands⟩ := hrun.reaches h hstart [] nofun
  rcases hend with ⟨hw, hk⟩ | ⟨hp, hdone, -⟩
  · exact absurd (hstands.write_lt hinv hw) (hk ▸ lt_irrefl _)
  · have hjob := hstands.jobDone hinv hdone
    obtain ⟨hfree, hclear⟩ := hinv.status.doneExcludes hdone
    have hwire : t.wire = s.wire ++ s.stream := by
      have hbytes : l.flatMap Event.bytes = s.stream := by
        rw [← bytes_actionsOf, hjob.plan]
        exact bytes_schedule (h.job.chunkSize hbusy)
      rw [← hbytes]
      exact (congrArg (List.flatMap Event.bytes) hist).trans List.flatMap_append
    have hemitted : t.emitted = s.emitted ++ s.schedule :=
      (congrArg actionsOf hist).trans ((actionsOf_append _ _).trans (congrArg (s.emitted ++ ·) hjob.plan))
    have hrun' := hrun.run []
    rw [List.append_nil] at hrun'
    exact ⟨turns, { t with turns := [] }, hrun.agents, hrun', rfl, hp, hdone, hfree,
      hclear.trans (flags_clear_of_busy h hbusy).2.symm, hemitted, hwire, hrun.pk, hrun.pix, hjob.count⟩

/-- Write `k` of the job can fail: LINK answers ok until it is outstanding, and then fail (R168, R172). -/
theorem exists_failing_run {s : State} {k : Nat} (h : Inv s) (hstart : AtTransmitStart s) (hk : k < writeCount s.schedule) :
    ∃ (turns : List Turn) (t : State) (l : List Event),
      linkAnswers turns = List.replicate k .ok ++ [.fail] ∧
      (∀ tn ∈ turns, tn = .seq ∨ tn = .link .ok ∨ tn = .link .fail ∨ tn = .timer) ∧
      runSteps turns.length { s with turns := turns } = .next t ∧ t.turns = [] ∧ t.history = s.history ++ l ∧
      .failed k ∈ l := by
  have hseq : s.seq = _ := hstart
  obtain ⟨turns, t, hrun, hend⟩ := exists_fairRun (k := k) h (.inl (by rw [hseq]; rfl)) (by simp [hseq])
  obtain ⟨hinv, -, l, hist, hstands⟩ := hrun.reaches h hstart [.link .fail] (by simp)
  rcases hend with ⟨hw, hnwr⟩ | ⟨hp, hdone, hle⟩
  · have hfail : runSteps 1 { t with turns := [.link .fail] } = .next (State.raise .transport { t with turns := [] }) := by
      rw [runSteps, step_link, linkTurn_fail (s := { t with turns := [] }) hw]
      rfl
    refine ⟨turns ++ [.link .fail], State.raise .transport { t with turns := [] }, l ++ [.failed k], ?_, fun tn htn => ?_, ?_,
      rfl, ?_, by simp⟩
    · obtain ⟨n, hn, hcount⟩ := hrun.answers
      obtain rfl : n = k := by simpa [hseq, hnwr] using hcount.symm
      rw [← hn]
      exact List.filterMap_append
    · rcases List.mem_append.1 htn with hmem | hmem
      · rcases hrun.agents tn hmem with rfl | rfl | rfl <;> simp
      · simp [List.mem_singleton.1 hmem]
    · rw [List.length_append, List.length_singleton, runSteps_add (hrun.run [.link .fail]), hfail]
    · rw [raise_transport_history, ← List.append_assoc, ← hnwr]
      exact congrArg (· ++ [.failed t.seq.nwr]) hist
  · have hcount := (hstands.jobDone hinv hdone).count
    exact absurd hk (Nat.not_lt.2 (hcount.symm.trans_le hle))

/-- Settles O56: where a run stands after a failure, and for each write the run that comes to it and fails there. -/
theorem failedWriteStopsTheSchedule : Obligations.FailedWriteStopsTheSchedule := by
  refine ⟨fun s t n k l => run_of_failure, fun s k h hstart hk => ?_⟩
  obtain ⟨turns, t, l, hanswers, hagents, hrun, hturns, hist, hmem⟩ := exists_failing_run h hstart hk
  have hno (tn : Turn) (htn : tn ∈ turns) : tn ≠ .reset ∧ tn ≠ .host (.writeCtrl 1#1) := by
    rcases hagents tn htn with rfl | rfl | rfl | rfl <;> simp
  obtain ⟨-, hemitted, hinfo, hp, herr, hcode, hbusy, hdone⟩ :=
    run_of_failure (s := { s with turns := turns }) (inv_setTurns h turns) hstart hno hrun hist hmem
  exact ⟨turns, t, hanswers, hagents, hrun, hturns, hp, herr, hcode, hbusy, hdone, hinfo, hemitted⟩

end Sys2Proof.Machine
end

section
/-! SUPPORT. START: the four checks in order, and what an accepted START and a failed one leave. -/

namespace Sys2Proof.Machine

open Sys2Proof

/-- Each failing check answers its number when those before it pass (R182). -/
theorem checkJob_of_failed {maxPix : Nat} {j : Cfg} {n : BitVec 32}
    (hfail : (j.w.toNat = 0 ∧ n = 1#32) ∨
      (1 ≤ j.w.toNat ∧ j.h.toNat = 0 ∧ n = 2#32) ∨
      (1 ≤ j.w.toNat ∧ 1 ≤ j.h.toNat ∧ maxPix < j.w.toNat * j.h.toNat ∧ n = 3#32) ∨
      (1 ≤ j.w.toNat ∧ 1 ≤ j.h.toNat ∧ j.w.toNat * j.h.toNat ≤ maxPix ∧ j.chunkSize.toNat = 0 ∧ n = 4#32)) :
    checkJob maxPix j = some n := by
  rcases hfail with ⟨hw, rfl⟩ | ⟨hw, hh, rfl⟩ | ⟨hw, hh, hpix, rfl⟩ | ⟨hw, hh, hpix, hcs, rfl⟩
  · rw [checkJob, if_pos hw]
  · rw [checkJob, if_neg (Nat.ne_of_gt hw), if_pos hh]
  · rw [checkJob, if_neg (Nat.ne_of_gt hw), if_neg (Nat.ne_of_gt hh), if_pos hpix]
  · rw [checkJob, if_neg (Nat.ne_of_gt hw), if_neg (Nat.ne_of_gt hh), if_neg (Nat.not_lt.2 hpix), if_pos hcs]

/-- What an accepted START leaves (R180, R181, R183). -/
def State.accepted (s : State) : State :=
  { s with
    status :=
      { busy := true, done := false, err := false, errcode := 0#2, rej := false,
        fallback := decide (5 ≤ s.cfg.qmode.toNat) }
    errinfo := 0#32
    job := { s.cfg with qmode := if 5 ≤ s.cfg.qmode.toNat then 1#3 else s.cfg.qmode }
    stage := .luma
    seq := { s.seq with phase := .render } }

section
variable {maxPix : Nat} {s : State} (hb : s.status.busy = false)
include hb

/-- A START whose checks pass is accepted (R180). -/
theorem startJob_of_checks_pass (hc : checkJob maxPix s.latched.job = none) : s.startJob maxPix = s.latched.enterRender := by
  rw [State.latched] at hc
  simp only [State.startJob, hb, hc]
  rfl

/-- A START one of whose checks fails is an InputError with its number (R182, R206). -/
theorem startJob_of_check_fails {n : BitVec 32} (hc : checkJob maxPix s.latched.job = some n) :
    s.startJob maxPix = s.latched.raise (.input n) := by
  rw [State.latched] at hc
  simp only [State.startJob, hb, hc]
  rfl

/-- START accepts a configuration that passes the four checks (R180, R182). -/
theorem startJob_accepted (hw : 1 ≤ s.cfg.w.toNat) (hh : 1 ≤ s.cfg.h.toNat) (hpix : s.cfg.w.toNat * s.cfg.h.toNat ≤ maxPix)
    (hcs : 1 ≤ s.cfg.chunkSize.toNat) : s.startJob maxPix = s.accepted := by
  have hc : checkJob maxPix s.latched.job = none := by
    rw [latched_eq]
    exact checkJob_eq_none.2 ⟨hw, hh, hpix, hcs⟩
  rw [startJob_of_checks_pass hb hc, latched_eq]
  rfl

end

/-- Every grid a configuration can ask for fits the adopted MAXPIX (log 8). -/
theorem grid_le_maxPix (j : Cfg) : j.w.toNat * j.h.toNat ≤ Params.adopted.maxPix :=
  Nat.mul_le_mul (Nat.le_of_lt_succ j.w.isLt) (Nat.le_of_lt_succ j.h.isLt)

theorem exec_start (s : State) : exec .start s = .next (s.startJob Params.adopted.maxPix) := rfl

/-- Settles O12: with the adopted MAXPIX the third check always passes, so the other three decide. -/
theorem acceptedStartLatchesAndRuns : Obligations.AcceptedStartLatchesAndRuns := fun s hb hw hh hcs => by
  rw [exec_start, startJob_accepted hb hw hh (grid_le_maxPix s.cfg) hcs]
  rfl

/-- Settles O13: the checks of the latched job are those of CFG, and the first that fails is the error raised. -/
theorem failedCheckIsInputError : Obligations.FailedCheckIsInputError := by
  refine ⟨exec_start, fun maxPix s hb hw hh hpix hcs => ?_, fun maxPix s n hb hfail => ?_⟩
  · rw [startJob_accepted hb hw hh hpix hcs]
    exact ⟨rfl, rfl⟩
  · have hc : checkJob maxPix s.latched.job = some n := by
      rw [latched_eq]
      exact checkJob_of_failed hfail
    rw [startJob_of_check_fails hb hc, latched_eq]
    simp only [State.raise, State.recordError, hb]

end Sys2Proof.Machine
end

section
/-! SUPPORT. What the render looks at: two runs of the stages that agree on the pixels of the grid and on the job's picture agree on
the grid after each stage, and so on every packed byte, whatever the two memories held and whatever their free values are. -/

namespace Sys2Proof.Machine

open Sys2Proof

/-! ### Two LUM memories with the same picture -/

/-- Two LUM memories, each with its own free values, read alike at every pixel of the grid. -/
def SameOnGrid (free free' : Nat → LumNum) (w h : Nat) (m m' : Mem LumNum) : Prop :=
  ∀ a, a < w * h → memRead free m a = memRead free' m' a

section
variable {free free' : Nat → LumNum} {w h : Nat} {m m' : Mem LumNum}

/-- Two memories are the same on the grid when they are at each pixel. -/
theorem sameOnGrid_of_pixels
    (hpixel : ∀ x y, x < w → y < h → memRead free m (pixelAddr w x y) = memRead free' m' (pixelAddr w x y)) :
    SameOnGrid free free' w h m m' := by
  intro a ha
  obtain ⟨x, y, hx, hy, rfl⟩ := exists_pixelAddr ha
  exact hpixel x y hx hy

/-- LUMA overwrites the whole grid: what LUM held is gone (R80). -/
theorem sameOnGrid_lumaGrid (p : Params) {pix pix' : Nat → Pixel} (hpix : ∀ a, a < w * h → pix a = pix' a) :
    SameOnGrid free free' w h (lumaGrid p pix w h m) (lumaGrid p pix' w h m') :=
  sameOnGrid_of_pixels fun x y hx hy => by
    rw [lumaGrid_read p free pix w h m hx hy, lumaGrid_read p free' pix' w h m' hx hy, hpix _ (pixelAddr_lt hx hy)]

section
variable (hm : SameOnGrid free free' w h m m')
include hm

theorem sameOnGrid_memSet (a : Nat) (v : LumNum) : SameOnGrid free free' w h (memSet m a v) (memSet m' a v) := by
  intro b hb
  rw [memRead_memSet, memRead_memSet, hm b hb]

theorem sameOnGrid_mapGrid (f : Nat → Nat → LumNum → LumNum) :
    SameOnGrid free free' w h (mapGrid free w h f m) (mapGrid free' w h f m') :=
  sameOnGrid_of_pixels fun x y hx hy => by
    rw [mapGrid_read free w h f m hx hy, mapGrid_read free' w h f m' hx hy, hm _ (pixelAddr_lt hx hy)]

theorem sameOnGrid_toneGrid (p : Params) (gamma : Half) :
    SameOnGrid free free' w h (toneGrid p free gamma w h m) (toneGrid p free' gamma w h m') := by
  unfold toneGrid
  split
  · exact hm
  · exact sameOnGrid_mapGrid hm _

theorem sameOnGrid_addShare (p : Params) (x y : Int) (delta : LumNum) :
    SameOnGrid free free' w h (addShare p free w h x y delta m) (addShare p free' w h x y delta m') := by
  unfold addShare
  split
  · rename_i hin
    obtain ⟨hx0, hx1, hy0, hy1⟩ := inGrid_iff.1 hin
    rw [hm _ (pixelAddr_lt (by omega) (by omega))]
    exact sameOnGrid_memSet hm _ _
  · exact hm

/-- A visit reads its own pixel and its targets, all of them in the grid (R48). -/
theorem sameOnGrid_visit (p : Params) (shares : LumNum → List Share) {x y : Nat} (hx : x < w) (hy : y < h) :
    SameOnGrid free free' w h (visit p free shares w h x y m) (visit p free' shares w h x y m') := by
  unfold visit
  rw [hm _ (pixelAddr_lt hx hy)]
  exact List.foldl_rel (sameOnGrid_memSet hm _ _) fun t _ _ _ hmt => sameOnGrid_addShare hmt p _ _ _

theorem sameOnGrid_fsGrid (p : Params) : SameOnGrid free free' w h (fsGrid p free w h m) (fsGrid p free' w h m') := by
  rw [fsGrid_eq_fsVisits, fsGrid_eq_fsVisits]
  refine List.foldl_rel hm fun v hv _ _ hmv => ?_
  obtain ⟨hx, hy⟩ := serpentine_inGrid v hv
  exact sameOnGrid_visit hmv p _ hx hy

theorem sameOnGrid_atkGrid (p : Params) : SameOnGrid free free' w h (atkGrid p free w h m) (atkGrid p free' w h m') := by
  rw [atkGrid_eq_atkVisits, atkGrid_eq_atkVisits]
  refine List.foldl_rel hm fun v hv _ _ hmv => ?_
  obtain ⟨hx, hy⟩ := mem_raster.1 hv
  exact sameOnGrid_visit hmv p _ hx hy

theorem sameOnGrid_quantGrid (p : Params) (mode : BitVec 3) (thresh : BitVec 8) :
    SameOnGrid free free' w h (quantGrid p free mode thresh w h m) (quantGrid p free' mode thresh w h m') := by
  unfold quantGrid
  split
  · exact sameOnGrid_mapGrid hm _
  · exact sameOnGrid_atkGrid hm p
  · exact sameOnGrid_mapGrid hm _
  · exact sameOnGrid_mapGrid hm _
  · exact sameOnGrid_fsGrid hm p

/-- A packed byte of the grid depends on the grid's pixels alone: padding reads none (R132). -/
theorem packByte_of_sameOnGrid {y : Nat} (hy : y < h) (xb : Nat) :
    packByte (memRead free m) w y xb = packByte (memRead free' m') w y xb := by
  have hbit (x : Nat) : packBit (memRead free m) w x y = packBit (memRead free' m') w x y := by
    unfold packBit
    by_cases hx : x < w
    · rw [hm _ (pixelAddr_lt hx hy)]
    · simp [hx]
  simp only [packByte, hbit]

end

end

/-! ### The whole render -/

/-- `quant(tone(luma(PIX)))` from whatever LUM holds; `renderGrid` is this from an empty LUM (R186). -/
def renderFrom (p : Params) (free : Nat → LumNum) (pix : Nat → Pixel) (j : Cfg) (lum : Mem LumNum) : Mem LumNum :=
  quantGrid p free j.qmode j.thresh j.w.toNat j.h.toNat
    (toneGrid p free j.gamma j.w.toNat j.h.toNat (lumaGrid p pix j.w.toNat j.h.toNat lum))

theorem renderGrid_eq_renderFrom (p : Params) (free : Nat → LumNum) (pix : Nat → Pixel) (j : Cfg) :
    renderGrid p free pix j = renderFrom p free pix j [] := rfl

/-- Two jobs ask for the same picture of the same pixels (R186). -/
structure SamePicture (j j' : Cfg) : Prop where
  w : j'.w = j.w
  h : j'.h = j.h
  gamma : j'.gamma = j.gamma
  qmode : j'.qmode = j.qmode
  thresh : j'.thresh = j.thresh

theorem SamePicture.refl (j : Cfg) : SamePicture j j := ⟨rfl, rfl, rfl, rfl, rfl⟩

/-- A byte of the rendered picture depends on the job's picture and the grid's pixels alone (R186, R26). -/
theorem packByte_renderFrom (p : Params) {free free' : Nat → LumNum} {pix pix' : Nat → Pixel} {j j' : Cfg}
    (m m' : Mem LumNum) (hj : SamePicture j j') (hpix : ∀ a, a < j.w.toNat * j.h.toNat → pix a = pix' a) {y : Nat}
    (hy : y < j.h.toNat) (xb : Nat) :
    packByte (memRead free (renderFrom p free pix j m)) j.w.toNat y xb =
      packByte (memRead free' (renderFrom p free' pix' j' m')) j'.w.toNat y xb := by
  obtain ⟨hw, hh, hgamma, hqmode, hthresh⟩ := hj
  unfold renderFrom
  rw [hw, hh, hgamma, hqmode, hthresh]
  exact packByte_of_sameOnGrid (sameOnGrid_quantGrid (sameOnGrid_toneGrid (sameOnGrid_lumaGrid p hpix) p _) p _ _) hy xb

/-- The rendered picture depends on the job's picture and the grid's pixels alone (R186, R26). -/
theorem renderByte_congr (p : Params) {free free' : Nat → LumNum} {pix pix' : Nat → Pixel} {j j' : Cfg}
    (hj : SamePicture j j') (hpix : ∀ a, a < j.w.toNat * j.h.toNat → pix a = pix' a) {i : Nat}
    (hi : i < rowBytesOf j.w.toNat * j.h.toNat) : renderByte p free pix j i = renderByte p free' pix' j' i := by
  unfold renderByte
  rw [renderGrid_eq_renderFrom, renderGrid_eq_renderFrom,
    packByte_renderFrom p [] [] hj hpix (Nat.div_lt_of_lt_mul hi), hj.w]

/-! ### The stages as steps -/

/-- QUANT with a legal mode writes the quantized grid (R100). -/
theorem exec_decodeQmode_legal {s : State} (hq : s.job.qmode.toNat < 5) :
    exec (decodeQmode s.job.qmode) s =
      .next (quantStage s
        (quantGrid Params.adopted s.lumFree s.job.qmode s.job.thresh s.width s.height s.lum)) := by
  rcases qmode_cases s.job.qmode with hc | hc | hc | hc | hc | hreserved
  on_goal 6 => exact absurd hq (Nat.not_lt.2 hreserved)
  all_goals
    rw [hc]
    rfl

section
variable {s : State} (rest : List Turn) (hp : s.seq.phase = .render)
include hp

/-- SEQ's turn inside RENDER is the stage that is next (R185). -/
theorem step_render :
    step { s with turns := .seq :: rest } = (renderStep { s with turns := rest }).outcome := by
  rw [step_seq, seqTurn_render (s := { s with turns := rest }) hp]

theorem step_luma (hs : s.stage = .luma) :
    step { s with turns := .seq :: rest } = .next { lumaStage Params.adopted s with turns := rest } := by
  rw [step_render rest hp]
  simp only [renderStep, hs]
  rfl

theorem step_tone (hs : s.stage = .tone) :
    step { s with turns := .seq :: rest } = .next { toneStage Params.adopted s with turns := rest } := by
  rw [step_render rest hp]
  simp only [renderStep, hs]
  rfl

theorem step_quant (hs : s.stage = .quant) (hq : s.job.qmode.toNat < 5) :
    step { s with turns := .seq :: rest } =
      .next { quantStage s
        (quantGrid Params.adopted s.lumFree s.job.qmode s.job.thresh s.width s.height s.lum) with turns := rest } := by
  have hfetch : renderStep { s with turns := rest } = .run (decodeQmode s.job.qmode) { s with turns := rest } := by
    simp only [renderStep, hs]
  rw [step_render rest hp, hfetch]
  exact exec_decodeQmode_legal (s := { s with turns := rest }) hq

theorem step_pack (hs : s.stage = .pack) :
    step { s with turns := .seq :: rest } = .next { packStage s with turns := rest } := by
  rw [step_render rest hp]
  simp only [renderStep, hs]
  rfl

end

/-! ### RENDER -/

/-- LUM after RENDER. -/
def State.renderedLum (s : State) : Mem LumNum := renderFrom Params.adopted s.lumFree s.readPix s.job s.lum

/-- The state RENDER leaves (R185, R186). -/
def State.rendered (s : State) : State :=
  { s with
    lum := s.renderedLum
    pk := packGrid (memRead s.lumFree s.renderedLum) s.width s.height s.pk
    stage := .luma
    seq := { phase := .reset, y := 0, rows := 0, off := 0, wait := .none, nwr := 0 } }

/-- A run whose first step is known goes on from there. -/
theorem runSteps_succ_of_step {s u : State} (h : step s = .next u) (k : Nat) : runSteps (k + 1) s = runSteps k u := by
  rw [runSteps, h]

/-- RENDER is its four stages, one step each (R185, log 2). -/
theorem runSteps_render {s : State} (rest : List Turn) (hp : s.seq.phase = .render) (hs : s.stage = .luma)
    (hq : s.job.qmode.toNat < 5) :
    runSteps 4 { s with turns := .seq :: .seq :: .seq :: .seq :: rest } = .next { s.rendered with turns := rest } := by
  have hluma := step_luma (.seq :: .seq :: .seq :: rest) hp hs
  have htone := step_tone (s := lumaStage Params.adopted s) (.seq :: .seq :: rest) hp rfl
  have hquant := step_quant (s := toneStage Params.adopted (lumaStage Params.adopted s)) (.seq :: rest) hp rfl hq
  have hpack := step_pack (s := quantStage s s.renderedLum) rest hp rfl
  exact (runSteps_succ_of_step hluma 3).trans <| (runSteps_succ_of_step htone 2).trans <|
    (runSteps_succ_of_step hquant 1).trans (runSteps_succ_of_step hpack 0)

/-- PK holds the render of PIX, whatever LUM and PK held (R186). -/
theorem rendered_readPk (s : State) {i : Nat} (hi : i < s.rowBytes * s.height) :
    s.rendered.readPk i = renderByte Params.adopted s.lumFree s.readPix s.job i := by
  have hrow : i / s.rowBytes < s.height := Nat.div_lt_of_lt_mul hi
  have hcol : i % s.rowBytes < s.rowBytes := Nat.mod_lt _ (Nat.pos_of_ne_zero fun h0 => by simp [h0] at hi)
  calc s.rendered.readPk i
      = s.rendered.readPk (packAddr s.width (i / s.rowBytes) (i % s.rowBytes)) :=
        congrArg s.rendered.readPk (Nat.div_add_mod' i s.rowBytes).symm
    _ = packByte (memRead s.lumFree s.renderedLum) s.width (i / s.rowBytes) (i % s.rowBytes) :=
        packGrid_read _ _ _ _ _ hcol hrow
    _ = renderByte Params.adopted s.lumFree s.readPix s.job i :=
        packByte_renderFrom _ s.lum [] (.refl s.job) (fun _ _ => rfl) hrow _

/-- Settles O35: the four steps leave the rendered state, whose bitmap is the render from an empty LUM. -/
theorem renderIsTheComposite : Obligations.RenderIsTheComposite := fun s rest hp hs hq =>
  ⟨{ s.rendered with turns := rest }, runSteps_render rest hp hs hq, rfl, fun _ hi => rendered_readPk s hi,
    fun _ hi => packGrid_outside _ _ _ _ _ hi⟩

/-- Settles O36: both bitmaps are renders, and a render looks at nothing else. -/
theorem pictureDependsOnlyOnJobAndPixels : Obligations.PictureDependsOnlyOnJobAndPixels := by
  intro s s' t t' rest rest' hp hs hp' hs' hq hw hh hgamma hqmode hthresh hpix hrun hrun' i hi
  have hj : SamePicture s.job s'.job := ⟨hw, hh, hgamma, hqmode, hthresh⟩
  have hi' : i < s'.rowBytes * s'.height := by
    rwa [State.rowBytes, State.width, State.height, hw, hh]
  obtain rfl := Host.Outcome.next.inj ((runSteps_render rest hp hs hq).symm.trans hrun)
  obtain rfl := Host.Outcome.next.inj ((runSteps_render rest' hp' hs' (hqmode ▸ hq)).symm.trans hrun')
  calc s'.rendered.readPk i
      = renderByte Params.adopted s'.lumFree s'.readPix s'.job i := rendered_readPk s' hi'
    _ = renderByte Params.adopted s.lumFree s.readPix s.job i :=
        (renderByte_congr _ hj (fun a ha => (hpix a ha).symm) hi).symm
    _ = s.rendered.readPk i := (rendered_readPk s hi).symm

end Sys2Proof.Machine
end

section
/-! SUPPORT. The whole job: START, RENDER and the run of the transmit part put together, and what SEQ, LINK and TIMER leave alone
on the way. -/

namespace Sys2Proof.Machine

open Sys2Proof

/-! ### What a run without the host keeps -/

/-- Neither the host nor a reset is among the moves left. -/
def NoHost (s : State) : Prop := ∀ tn ∈ s.turns, tn ≠ .reset ∧ ∀ a, tn ≠ .host a

theorem NoHost.step {s t : State} (h : NoHost s) (hstep : step s = .next t) : NoHost t := by
  have hturns : t.turns = s.turns.tail := turns_of_moves (step_moves hstep)
  exact fun tn htn => h tn (List.mem_of_mem_tail (hturns ▸ htn))

/-- With no move of the host's listed the next one is not the host's: an empty list is SEQ's turn (log 1). -/
theorem NoHost.nextTurn {s : State} (h : NoHost s) : s.nextTurn ≠ .reset ∧ ∀ a, s.nextTurn ≠ .host a := by
  rw [State.nextTurn]
  cases hturns : s.turns with
  | nil => simp
  | cons tn rest => exact h tn (hturns ▸ List.mem_cons_self)

/-- A step that is not the host's keeps CFG and JOB (R10, R23). -/
theorem config_of_hostless_step {s t : State} (h : Inv s) (hno : NoHost s) (hstep : step s = .next t) :
    t.cfg = s.cfg ∧ t.job = s.job := by
  obtain ⟨hreset, hhost⟩ := hno.nextTurn
  constructor
  · by_contra hne
    obtain ⟨-, hcfg, -⟩ := memoriesHaveOneWriter s t hstep hreset
    obtain ⟨a, ha⟩ := hcfg hne
    exact hhost a ha
  · by_contra hne
    rcases onlyStartChangesJob s t h hstep hne with he | ⟨he, -⟩
    · exact hreset he
    · exact hhost _ he

/-- A run in which the host does not move keeps CFG and JOB (R10, R23). -/
theorem config_of_hostless_run {s t : State} {n : Nat} (h : Inv s) (hno : NoHost s) (hrun : runSteps n s = .next t) :
    t.cfg = s.cfg ∧ t.job = s.job := by
  obtain ⟨-, -, hcfg, hjob⟩ := runSteps_induction
    (P := fun u => Inv u ∧ NoHost u ∧ u.cfg = s.cfg ∧ u.job = s.job)
    (fun u v ⟨hu, hnou, hcfg, hjob⟩ hstep => by
      obtain ⟨hcfg', hjob'⟩ := config_of_hostless_step hu hnou hstep
      exact ⟨stepKeepsInvariant u v hu hstep, hnou.step hstep, hcfg'.trans hcfg, hjob'.trans hjob⟩)
    ⟨h, hno, rfl, rfl⟩ hrun
  exact ⟨hcfg, hjob⟩

/-! ### The stream of a rendered picture -/

/-- A band's body lies inside the bitmap (R148). -/
theorem bandByte_lt {rb y rows h k : Nat} (hin : y + rows ≤ h) (hk : k < rb * rows) : y * rb + k < rb * h :=
  calc y * rb + k < y * rb + rb * rows := Nat.add_lt_add_left hk _
    _ = rb * (y + rows) := by ring
    _ ≤ rb * h := Nat.mul_le_mul_left rb hin

/-- The stream of a job whose bitmap is given byte by byte (R65, R143). -/
theorem stream_of_bitmap {s : State} {bitmap : Nat → Byte} (hh : 1 ≤ s.height)
    (hpk : ∀ i, i < s.rowBytes * s.height → s.readPk i = bitmap i) :
    s.stream = resetBytes ++
      s.bands.flatMap (fun band => headerBytes s.rowBytes band.2 ++
        (List.range (s.rowBytes * band.2)).map fun k => bitmap (band.1 * s.rowBytes + k)) ++ feedBytes := by
  have hbody : ∀ band ∈ s.bands, s.bandBytes band.1 band.2 =
      (List.range (s.rowBytes * band.2)).map fun k => bitmap (band.1 * s.rowBytes + k) := fun band hband =>
    List.map_congr_left fun k hk => hpk _ (bandByte_lt (band_inside hh hband).2 (List.mem_range.1 hk))
  rw [State.stream, List.flatMap_congr fun band hband => by rw [hbody band hband]]

/-! ### The job -/

/-- RENDER is steps of the machine, so it keeps the invariant. -/
theorem inv_rendered {s : State} (h : Inv s) (hp : s.seq.phase = .render) (hs : s.stage = .luma) : Inv s.rendered :=
  runSteps_induction stepKeepsInvariant (inv_setTurns h _) (runSteps_render s.turns hp hs h.job.mode)

section
variable {s : State} (hb : s.status.busy = false) (hw : 1 ≤ s.cfg.w.toNat) (hh : 1 ≤ s.cfg.h.toNat)
  (hcs : 1 ≤ s.cfg.chunkSize.toNat)
include hb hw hh hcs

theorem inv_accepted (h : Inv s) : Inv s.accepted :=
  startJob_accepted hb hw hh (grid_le_maxPix s.cfg) hcs ▸ inv_startJob h

/-- START and the four stages of RENDER. -/
theorem runSteps_start_render (rest : List Turn) :
    runSteps 5 { s with turns := .host (.writeCtrl 1#1) :: .seq :: .seq :: .seq :: .seq :: rest } =
      .next { s.accepted.rendered with turns := rest } := by
  have hstart (l : List Turn) :
      step { s with turns := .host (.writeCtrl 1#1) :: l } = .next { s.accepted with turns := l } :=
    acceptedStartLatchesAndRuns { s with turns := l } hb hw hh hcs
  rw [runSteps_succ_of_step (hstart _)]
  exact runSteps_render (s := s.accepted) rest rfl rfl (resolved_mode_lt _)

end

/-- Settles O57: START and the four stages lead to the start of the transmit part with the picture in PK, and the run of the
transmit part sends that bitmap's stream. -/
theorem wholeJobSendsThePicture : Obligations.WholeJobSendsThePicture := by
  intro s h hb hw hh hcs
  have hinv := inv_rendered (inv_accepted hb hw hh hcs h) rfl rfl
  obtain ⟨turns, t, hagents, hrun, hturns, hidle, hdone, hfree, herr, -, hwire, -, hpix, -⟩ := jobRunsToDone _ hinv rfl
  have hno : NoHost { s.accepted.rendered with turns := turns } := fun tn htn => by
    rcases hagents tn htn with rfl | rfl | rfl <;> simp
  obtain ⟨hcfg, hjob⟩ := config_of_hostless_run (inv_setTurns hinv turns) hno hrun
  refine ⟨.seq :: .seq :: .seq :: .seq :: turns, t, ?_, ?_, hturns, hidle, hdone, hfree, herr, hcfg, hpix, hjob, ?_⟩
  · simpa using hagents
  · have hlength : (Turn.seq :: .seq :: .seq :: .seq :: turns).length + 1 = 5 + turns.length := Nat.add_comm _ 5
    rw [hlength, runSteps_add (runSteps_start_render hb hw hh hcs turns), hrun]
  · rw [hwire, stream_of_bitmap (s := s.accepted.rendered) hh fun _ hi => rendered_readPk s.accepted hi]
    simp only [State.bandRows, State.height, State.rowBytes, State.width, hjob]
    rfl

end Sys2Proof.Machine
end

section
/-! SUPPORT. START during a job. -/

namespace Sys2Proof.Machine

open Sys2Proof

/-- Settles O11: BUSY turns the START away, and a BusyReject records nothing but REJ. -/
theorem busyStartIsRejected : Obligations.BusyStartIsRejected := fun s hb => by
  rw [exec_start, startJob_of_busy hb]
  rfl

end Sys2Proof.Machine
end

section
/-! SUPPORT. Reset: the values it leaves, the invariant there, and a reset during a job. -/

namespace Sys2Proof.Machine

open Sys2Proof

/-- Settles O1: State.reset is written with these values, and STATUS has no flag set. -/
theorem resetValues : Obligations.ResetValues :=
  ⟨rfl, rfl, rfl, rfl, rfl, rfl, rfl, rfl, rfl, rfl, rfl, rfl, rfl, rfl⟩

/-- Settles O2: reset once more, the reset state differs only in the number of resets, which the invariant does not look at. -/
theorem resetSatisfiesInvariant : Obligations.ResetSatisfiesInvariant :=
  inv_of_same_position (inv_hardwareReset State.reset) ⟨_, rfl⟩ rfl rfl rfl ⟨rfl, rfl, rfl⟩ fun _ => rfl

/-- A reset's turn. -/
theorem step_reset (s : State) (rest : List Turn) :
    step { s with turns := .reset :: rest } = .next ({ s with turns := rest } : State).hardwareReset := rfl

/-- An answer of LINK with no write outstanding is ignored (R231). -/
theorem linkTurn_of_no_write {s : State} (a : LinkAnswer) (hw : s.seq.wait ≠ .write) :
    (linkTurn a s).outcome = .next s :=
  congrArg Fetched.outcome (if_neg hw)

/-- Settles O4: after the reset no write is outstanding, so LINK's answer only takes its own turn off the list. -/
theorem hardwareResetDropsJob : Obligations.HardwareResetDropsJob := by
  refine ⟨step_reset, fun s a rest => ?_⟩
  have hignored : step ({ s with turns := .link a :: rest } : State).hardwareReset =
      .next ({ s with turns := rest } : State).hardwareReset :=
    (step_link ({ s with turns := rest } : State).hardwareReset rest a).trans
      (linkTurn_of_no_write a (by simp [Seq.reset]))
  calc
    runSteps 2 { s with turns := .reset :: .link a :: rest }
    _ = runSteps 1 ({ s with turns := .link a :: rest } : State).hardwareReset :=
      runSteps_succ_of_step (step_reset s (.link a :: rest)) 1
    _ = .next ({ s with turns := rest } : State).hardwareReset := runSteps_succ_of_step hignored 0
    _ = runSteps 1 { s with turns := .reset :: rest } := (runSteps_succ_of_step (step_reset s rest) 0).symm

end Sys2Proof.Machine
end
